-- ==== Sys2Proof/Word.lean ====
section
/-! DEFINITION. The 32-bit word, the byte, the bank index and a record of one thing per bank. -/

namespace Sys2Proof

/-- Rule R8: every word of the block is 32 bits, bit 0 the least significant. -/
abbrev Word := BitVec 32

/-- One byte of an identification string (R28) or of the byte view of a page (R42). -/
abbrev Byte := BitVec 8

/-- Rule R6, `NBANKS = 4`: the index of one of the four GPIO controller banks. -/
abbrev BankId := Fin 4

/-- One `α` for each of the four banks. -/
structure PerBank (α : Type) where
  b0 : α
  b1 : α
  b2 : α
  b3 : α
deriving DecidableEq, Repr

/-- The entry of bank `b`. -/
def PerBank.get {α : Type} (q : PerBank α) (b : BankId) : α :=
  match b with
  | 0 => q.b0
  | 1 => q.b1
  | 2 => q.b2
  | 3 => q.b3

/-- `q` with the entry of bank `b` replaced. -/
def PerBank.set {α : Type} (q : PerBank α) (b : BankId) (x : α) : PerBank α :=
  match b with
  | 0 => { q with b0 := x }
  | 1 => { q with b1 := x }
  | 2 => { q with b2 := x }
  | 3 => { q with b3 := x }

/-- The same `α` in all four banks. -/
def PerBank.all {α : Type} (x : α) : PerBank α := ⟨x, x, x, x⟩

end Sys2Proof
end

