-- ==== Sys2Proof/Config.lean ====
section
/-! DEFINITION. The parameters of rule R7, the parameters of a run, and the one free value of the model. -/

namespace Sys2Proof

/-- One of the two write ports onto the output latch that a commit uses (R88). -/
inductive Drive where
  /-- The SET register: the bits of the word go high. -/
  | set
  /-- The CLEAR register: the bits of the word go low. -/
  | clear
deriving DecidableEq, Repr

/-- `REG_OFF[r]` of rule R7: the byte offset of each named register in its page. -/
structure RegOffsets where
  dataIn : Nat
  dataOut : Nat
  set : Nat
  clear : Nat
  debEn : Nat
  debTime : Nat
  oe : Nat
deriving DecidableEq, Repr

/-- The parameters that the source leaves open (R7), and the identification strings, which are fixed for a
run (R28). A configuration is held in the state as plain data and no step changes it, so a statement about
every state is a statement about every configuration (assumption log 1). -/
structure Config where
  /-- `NREQ`: how many requester ports there are. -/
  nreq : Nat
  /-- `NH`: how many pin-handle slots there are, 1 to 256. -/
  nh : Nat
  /-- `NCOLL`: how many Collections there are, 0 to 128. -/
  ncoll : Nat
  /-- `BANK_BASE[0..3]`. -/
  bankBase : PerBank Nat
  /-- `REG_OFF[r]`. -/
  regOff : RegOffsets
  /-- `OE_OUT_LEVEL`: the value of an output-enable bit that means direction OUT. -/
  oeOutLevel : Bool
  /-- `ID_PREFIX`. -/
  idPrefix : List Byte
  /-- `ID_LEN`. -/
  idLen : Nat
  /-- `COMMIT_ORDER`: the order of the eight register writes of a commit (R88). -/
  commitOrder : List (BankId × Drive)
  /-- `IDSTR[0..3]` (R28): `none` is a file that cannot be read. -/
  idStr : PerBank (Option (List Byte))
deriving DecidableEq, Repr

/-- The bytes of `ti,omap4-gpio` (R7). -/
def Config.omapId : List Byte :=
  [0x74, 0x69, 0x2C, 0x6F, 0x6D, 0x61, 0x70, 0x34, 0x2D, 0x67, 0x70, 0x69, 0x6F]

/-- The default column of rule R7, with two requester ports and identification strings that match: the
configuration of the test vectors. PRESUMED where the spec marks the default as general knowledge
(assumption log 12), DESIGN CHOICE for the sizes and the strings (13, 14). -/
def Config.standard : Config where
  nreq := 2
  nh := 16
  ncoll := 2
  bankBase := ⟨0x44E07000, 0x4804C000, 0x481AC000, 0x481AE000⟩
  regOff :=
    { oe := 0x134, dataIn := 0x138, dataOut := 0x13C, debEn := 0x150, debTime := 0x154,
      clear := 0x190, set := 0x194 }
  oeOutLevel := false
  idPrefix := Config.omapId
  idLen := 13
  commitOrder :=
    [(0, .set), (0, .clear), (1, .set), (1, .clear), (2, .set), (2, .clear), (3, .set), (3, .clear)]
  idStr := PerBank.all (some Config.omapId)

/-- The word that a read of SET or CLEAR returns, at each value of the draw counter `State.draws`. It has no
body: rules R33 and R37 leave the word unspecified, a free draw on each read (assumption log 7). -/
opaque Config.freeWord : Nat → Word

end Sys2Proof
end

