-- ==== Sys2Proof/Syntax.lean ====
section
/-! DEFINITION. Commands as words, register names, and the fourteen instructions. -/

namespace Sys2Proof

/-- What a requester port presents (R53): a command word and the side operand that only REGWR reads. -/
structure Command where
  cmd : Word
  wdata : Word
deriving DecidableEq, Repr

/-- The seven named registers of a bank (R56). Selector 7 is reserved and has no name here. -/
inductive Reg where
  | dataIn
  | dataOut
  | set
  | clear
  | debEn
  | debTime
  | oe
deriving DecidableEq, Repr

/-- The fourteen commands of rule R55, with the operands of rule R57. `bank` and `reg` are decoded;
`h`, `coll`, `c` and `num` stay the unsigned fields that the command word holds. -/
inductive Instr where
  /-- MAPOPEN (R67). -/
  | mapopen
  /-- MAPCLOSE (R68). -/
  | mapclose
  /-- REGRD b, REG (R69). -/
  | regrd (bank : BankId) (reg : Reg)
  /-- REGWR b, REG, word (R70). -/
  | regwr (bank : BankId) (reg : Reg) (wdata : Word)
  /-- PINNEW h, num [, @coll] (R75). -/
  | pinnew (h : BitVec 8) (ic : Bool) (coll : BitVec 7) (num : BitVec 8)
  /-- SETSTATE h, v (R78, R87). -/
  | setstate (h : BitVec 8) (v : Bool)
  /-- SETIMM h, v (R98). -/
  | setimm (h : BitVec 8) (v : Bool)
  /-- GETSTATE h (R79). -/
  | getstate (h : BitVec 8)
  /-- CHKDIR h (R80). -/
  | chkdir (h : BitVec 8)
  /-- SETACTLOW h, v (R99). -/
  | setactlow (h : BitVec 8) (v : Bool)
  /-- SETDEB h, v (R81). -/
  | setdeb (h : BitVec 8) (v : Bool)
  /-- BEGIN c (R86). -/
  | beginTx (c : BitVec 8)
  /-- COMMIT c (R88). -/
  | commit (c : BitVec 8)
  /-- GETPEND h (R89). -/
  | getpend (h : BitVec 8)
deriving DecidableEq, Repr

end Sys2Proof
end

