-- ==== Sys2Proof/Machine/State.lean ====
section
/-! DEFINITION. The state of the block and of its host as plain data, the reasons a step can stop, and reset. -/

namespace Sys2Proof.Machine

/-- The life cycle of the Register Bank Map (R14). -/
inductive MapState where
  /-- UNOPENED: no open attempted since reset. -/
  | unopened
  /-- OPEN: all four banks mapped. -/
  | opened
  /-- FAILED: the identification check failed. -/
  | failed
  /-- CLOSED: MAPCLOSE has unmapped all banks. -/
  | closed
deriving DecidableEq, Repr

/-- One slot of the pin-handle table (R15). -/
structure Pin where
  valid : Bool
  num : BitVec 7
  al : Bool
  ic : Bool
  coll : BitVec 7
deriving DecidableEq, Repr

/-- The lock of a Collection (R19). -/
inductive Lock where
  | free
  /-- `HELD(p)`: the COMMIT of port `p` holds it. -/
  | held (p : Nat)
deriving DecidableEq, Repr

/-- A Batch Transaction Collection (R17, R19): `REC`, `LOCK` and the two masks of each bank. -/
structure Collection where
  recording : Bool
  lock : Lock
  pset : PerBank Word
  pclr : PerBank Word
deriving DecidableEq, Repr

/-- The registers of one GPIO bank (R22), what the outside world drives on its pins (R23) and whether its
clock runs (R24). SET and CLEAR are write ports onto `dataOut`, not storage. -/
structure Bank where
  dataOut : Word
  oe : Word
  debEn : Word
  debTime : Word
  padIn : Word
  clkEn : Bool
deriving DecidableEq, Repr

/-- A pin's direction as a command sees it (R11); no slot stores one (R16). -/
inductive Direction where
  | input
  | output
deriving DecidableEq, Repr

/-- The response statuses of rule R106. The codes 6 to 15 are reserved and never produced. -/
inductive Status where
  | ok
  | hardwareIncompatible
  | resourceUnavailable
  | invalidOperation
  | transientIO
  | illegalCommand
deriving DecidableEq, Repr

/-- A response (R25, R53). -/
structure Response where
  status : Status
  rdata : Word
deriving DecidableEq, Repr

/-- The temporaries that a command carries between its micro-steps (R20), named as in the commands' rules. -/
structure Temps where
  /-- `d` of GETSTATE and SETACTLOW (R79, R99). -/
  dir : Direction
  /-- `w` of SETDEB (R81). -/
  word : Word
  /-- `L` of SETACTLOW (R99). -/
  level : Bool
  /-- `old` of SETACTLOW (R99). -/
  old : Bool
  /-- `b` of SETSTATE on the idle path (R87) and of SETDEB (R81). -/
  bank : BankId
  /-- `m` of SETSTATE on the idle path (R87) and of SETDEB (R81). -/
  mask : Word
  /-- `p` of SETSTATE on the idle path (R87). -/
  phys : Bool
deriving DecidableEq, Repr

/-- No temporary carried. -/
def Temps.none : Temps := ⟨.input, 0, false, false, 0, 0, false⟩

/-- A command in flight, the micro-step `M<mstep>` it stands at, and its temporaries (R13, R20). -/
structure Flight where
  instr : Instr
  mstep : Nat
  temps : Temps
deriving DecidableEq, Repr

/-- A requester port (R20, R25): its command list, which no step changes, the index of the next command,
the command in flight (`none` between commands) and the last response. -/
structure Port where
  prog : List Command
  idx : Nat
  flight : Option Flight
  rsp : Response
deriving DecidableEq, Repr

/-- Which port takes a micro-step, and the draws of the host for that micro-step: whether it makes the bank
access fail (R110) and whether it answers an export with ok (R27). -/
structure PortTurn where
  port : Nat
  busError : Bool
  exportOk : Bool
deriving DecidableEq, Repr

/-- The free moves of the host (R29). -/
inductive HostMove where
  /-- Change the levels that the outside world drives on the pins of a bank. -/
  | drivePads (b : BankId) (levels : Word)
  /-- Set the directions of the pins of a bank. -/
  | setDirections (b : BankId) (oe : Word)
  /-- Turn the clock of a bank on. -/
  | startClock (b : BankId)
deriving DecidableEq, Repr

/-- One step of the total order of rule R45: a micro-step of a port, or a move of the host. -/
inductive Turn where
  | port (t : PortTurn)
  | host (m : HostMove)
deriving DecidableEq, Repr

/-- The state of rule R13, the parameters of the run (`cfg`, and each port's `prog`), and the model's own
fields: the turn being taken, or between steps the last one taken (`turn`), the turns to come (`turns`) and the
draw counter (`draws`). -/
structure State where
  cfg : Config
  map : MapState
  pins : List Pin
  colls : List Collection
  banks : PerBank Bank
  ports : List Port
  turn : PortTurn
  turns : List Turn
  draws : Nat
deriving DecidableEq, Repr

/-- Why the machine stops with a fault. -/
inductive Fault where
  /-- Rule R115, `UseAfterClose`: a bank access with the map not open, or a command that needs the map with
  the map closed. Raised by `State.readThen`, `State.writeThen` and `State.requireMap`. Safe: nothing is
  provable past it. -/
  | useAfterClose
deriving DecidableEq, Repr

/-- Why the machine gives an instruction no meaning. -/
inductive Refusal where
  /-- An instruction whose arm of `exec` has no meaning. Raised by no arm of this model. Safe. -/
  | notModelled (mnemonic : String)
  /-- Rule R35: a raw write to DATAIN, which the spec calls implementation-defined and has a model refuse.
  Raised by `State.writeThen` for REGWR. Safe. -/
  | dataInWrite
deriving DecidableEq, Repr

/-- What one step answers. -/
abbrev Result := Host.Outcome State Fault Refusal

/-- An empty slot (R31: `valid = 0`; the other fields are unspecified there, DESIGN CHOICE zero, log 11). -/
def Pin.empty : Pin := ⟨false, 0, false, false, 0⟩

/-- A Collection after reset (R31): idle, masks zero, lock free. -/
def Collection.idle : Collection := ⟨false, .free, PerBank.all 0, PerBank.all 0⟩

/-- A bank at the model's power-on: rule R31 gives no values (DESIGN CHOICE zero and clock off, log 8, 9, 10). -/
def Bank.powerOn : Bank := ⟨0, 0, 0, 0, 0, false⟩

/-- A port after reset with the command list `prog` (R31; the response is unspecified, DESIGN CHOICE, log 11). -/
def Port.start (prog : List Command) : Port := ⟨prog, 0, none, ⟨.ok, 0⟩⟩

/-- The machine right after reset (R31, R127), under the parameters of the vectors, with no command listed
and no turn queued. -/
def State.reset : State where
  cfg := Config.standard
  map := .unopened
  pins := List.replicate Config.standard.nh Pin.empty
  colls := List.replicate Config.standard.ncoll Collection.idle
  banks := PerBank.all Bank.powerOn
  ports := List.replicate Config.standard.nreq (Port.start [])
  turn := ⟨0, false, true⟩
  turns := []
  draws := 0

end Sys2Proof.Machine
end

