-- ==== Sys2Proof/Machine/Operands.lean ====
section
/-! DEFINITION. Pin addresses, polarity, directions, register addresses and identification strings. -/

namespace Sys2Proof.Machine

/-- `bitmask(i) = 1 << i` (R8). -/
def bitmask (i : Nat) : Word := 1#32 <<< i

/-- `bank(n) = n / 32` (R73). -/
def pinBank (n : BitVec 7) : BankId := ⟨n.toNat / 32, by have := n.isLt; omega⟩

/-- `bit(n) = n % 32` (R73). -/
def pinBit (n : BitVec 7) : Nat := n.toNat % 32

/-- `mask(n) = bitmask(n % 32)` (R73). -/
def pinMask (n : BitVec 7) : Word := bitmask (pinBit n)

/-- The bank of the pin in a slot. -/
def Pin.bank (p : Pin) : BankId := pinBank p.num

/-- The bit of the pin in a slot. -/
def Pin.bit (p : Pin) : Nat := pinBit p.num

/-- The mask of the pin in a slot. -/
def Pin.mask (p : Pin) : Word := pinMask p.num

/-- `phys = logical xor al` (R76). -/
def Pin.physical (p : Pin) (logical : Bool) : Bool := logical ^^ p.al

/-- `logical = phys xor al` (R76). -/
def Pin.logical (p : Pin) (phys : Bool) : Bool := phys ^^ p.al

/-- The slot that PINNEW binds in its last micro-step (R75, M3). -/
def Pin.bound (num : BitVec 7) (ic : Bool) (coll : BitVec 7) : Pin :=
  ⟨true, num, false, ic, if ic then coll else 0⟩

/-- The direction that bit `i` of an output-enable word means (R41, R80). -/
def directionOf (cfg : Config) (oe : Word) (i : Nat) : Direction :=
  if oe.getLsbD i = cfg.oeOutLevel then .output else .input

/-- The register that holds the level of a pin of direction `d` (R79). -/
def levelRegister : Direction → Reg
  | .input => .dataIn
  | .output => .dataOut

/-- `REG_OFF[r]` (R56). -/
def regOffset (cfg : Config) : Reg → Nat
  | .dataIn => cfg.regOff.dataIn
  | .dataOut => cfg.regOff.dataOut
  | .set => cfg.regOff.set
  | .clear => cfg.regOff.clear
  | .debEn => cfg.regOff.debEn
  | .debTime => cfg.regOff.debTime
  | .oe => cfg.regOff.oe

/-- The physical byte address of a register: `BANK_BASE[b] + REG_OFF[r]` (R9, R32). -/
def regAddress (cfg : Config) (b : BankId) (r : Reg) : Nat := cfg.bankBase.get b + regOffset cfg r

/-- The register of a bank that a side of a commit writes (R88). -/
def driveRegister : Drive → Reg
  | .set => .set
  | .clear => .clear

/-- Whether an identification string begins with the expected prefix (R65): an unreadable or short string is
a mismatch (R28), and bytes after the first `ID_LEN` are ignored. -/
def idMatches (cfg : Config) : Option (List Byte) → Bool
  | none => false
  | some s => decide (cfg.idLen ≤ s.length) && decide (s.take cfg.idLen = cfg.idPrefix)

/-- Whether all four identification strings match (R65). -/
def identified (cfg : Config) : Bool :=
  idMatches cfg cfg.idStr.b0 && idMatches cfg cfg.idStr.b1 &&
  idMatches cfg cfg.idStr.b2 && idMatches cfg cfg.idStr.b3

end Sys2Proof.Machine
end

