-- ==== Sys2Proof/Machine/Flags.lean ====
section
/-! DEFINITION. Status codes, response data and the buffered level of a pin. The block has no condition
codes (R21): the recording flag and the response status are its only flag-like state. -/

namespace Sys2Proof.Machine

/-- The number of a status (R106). -/
def Status.code : Status → BitVec 4
  | .ok => 0
  | .hardwareIncompatible => 1
  | .resourceUnavailable => 2
  | .invalidOperation => 3
  | .transientIO => 4
  | .illegalCommand => 5

/-- A boolean in bit 0 of `rdata`, the other bits zero (R58). -/
def boolData (v : Bool) : Word := (BitVec.ofBool v).setWidth 32

/-- CHKDIR's `rdata`: 1 for OUT, 0 for IN (R58, R80). -/
def directionData : Direction → Word
  | .output => 1
  | .input => 0

/-- GETPEND's `rdata`: known in bit 1, value in bit 0, which is 0 when not known (R58, R89). -/
def pendingData (known value : Bool) : Word :=
  (BitVec.ofBool known ++ BitVec.ofBool (known && value)).setWidth 32

/-- The masks of one bank after a pin's level is buffered (R87): the pin's bit is set in the mask of the
level and cleared in the sibling mask. -/
def Collection.buffer (c : Collection) (b : BankId) (m : Word) (p : Bool) : Collection :=
  if p then
    { c with pset := c.pset.set b (c.pset.get b ||| m), pclr := c.pclr.set b (c.pclr.get b &&& ~~~m) }
  else
    { c with pclr := c.pclr.set b (c.pclr.get b ||| m), pset := c.pset.set b (c.pset.get b &&& ~~~m) }

/-- The word that a side of a commit writes to a bank (R88). -/
def Collection.commitWord (c : Collection) (b : BankId) : Drive → Word
  | .set => c.pset.get b
  | .clear => c.pclr.get b

/-- What GETPEND answers for a pin of the Collection (R89). -/
def Collection.pending (c : Collection) (p : Pin) : Word :=
  let s := (c.pset.get p.bank).getLsbD p.bit
  let k := (c.pclr.get p.bank).getLsbD p.bit
  pendingData (s || k) (p.logical s)

end Sys2Proof.Machine
end

