-- ==== Sys2Proof/Machine/Ops.lean ====
section
/-! DEFINITION. The operations over the state that the meanings share: access to its parts, responses and
errors, the position of a command in flight, the bank accesses, the map and the lock. -/

namespace Sys2Proof.Machine

/-! ### The parts of the state -/

/-- Slot `h` of the pin-handle table. -/
def State.pin (s : State) (h : BitVec 8) : Pin := s.pins.getD h.toNat Pin.empty

/-- `PIN[h] <- p`. -/
def State.setPin (s : State) (h : BitVec 8) (p : Pin) : State :=
  { s with pins := s.pins.set h.toNat p }

/-- Collection `c`. -/
def State.coll (s : State) (c : Nat) : Collection := s.colls.getD c Collection.idle

/-- Collection `c` replaced. -/
def State.setColl (s : State) (c : Nat) (x : Collection) : State :=
  { s with colls := s.colls.set c x }

/-- The registers of bank `b`. -/
def State.bank (s : State) (b : BankId) : Bank := s.banks.get b

/-- The registers of bank `b` replaced. -/
def State.setBank (s : State) (b : BankId) (x : Bank) : State :=
  { s with banks := s.banks.set b x }

/-- The port that takes the present turn. -/
def State.port (s : State) : Port := s.ports.getD s.turn.port (Port.start [])

/-- The port that takes the present turn, replaced. -/
def State.setPort (s : State) (p : Port) : State :=
  { s with ports := s.ports.set s.turn.port p }

/-! ### Responses and errors: the whole of "trap entry" (R117); there is no return from one (R119) -/

/-- A command ends with a response (R25): it is held in `rsp`, nothing is in flight, and `idx` advances by
exactly 1, whatever the status (R20). -/
def State.respond (s : State) (st : Status) (v : Word) : State :=
  s.setPort { s.port with idx := s.port.idx + 1, flight := none, rsp := ⟨st, v⟩ }

/-- `raise X` (R9): a response with status X and `rdata = 0`, with no further state change. -/
def State.raise (s : State) (st : Status) : State := s.respond st 0

/-! ### The position of the command in flight (R20) -/

/-- The micro-step the port stands at: M1 between commands. -/
def State.mstep (s : State) : Nat :=
  match s.port.flight with
  | some f => f.mstep
  | none => 1

/-- The temporaries the port's command carries. -/
def State.temps (s : State) : Temps :=
  match s.port.flight with
  | some f => f.temps
  | none => Temps.none

/-- Instruction `i` is in flight at micro-step `n` with the temporaries `t`. -/
def State.enter (s : State) (i : Instr) (n : Nat) (t : Temps) : State :=
  s.setPort { s.port with flight := some ⟨i, n, t⟩ }

/-- A micro-step that is not enabled (R112, R113): the command stays in flight at the micro-step it stands
at, and nothing else happens. -/
def State.hold (s : State) (i : Instr) : State := s.enter i s.mstep s.temps

/-! ### The bank accesses `BankRead` and `BankWrite` (R33, R34) -/

/-- What tests 1 to 3 of rule R33 find for an access. -/
inductive Gate where
  /-- Test 1: the map is not open. -/
  | undefinedAccess
  /-- Test 2: the bank's clock is off. -/
  | hang
  /-- Test 3: the host makes the access fail. -/
  | busError
  /-- The access happens. -/
  | pass
deriving DecidableEq, Repr

/-- Tests 1 to 3 of rule R33, in its order. -/
def State.gate (s : State) (b : BankId) : Gate :=
  if s.map ≠ .opened then .undefinedAccess
  else if (s.bank b).clkEn = false then .hang
  else if s.turn.busError then .busError
  else .pass

/-- The word that a read of register `r` returns (R33 item 4). -/
def State.readWord (s : State) (b : BankId) : Reg → Word
  | .dataIn => (s.bank b).padIn
  | .dataOut => (s.bank b).dataOut
  | .set => Config.freeWord s.draws
  | .clear => Config.freeWord s.draws
  | .debEn => (s.bank b).debEn
  | .debTime => (s.bank b).debTime
  | .oe => (s.bank b).oe

/-- A read changes no state of the machine (R33); a read of SET or CLEAR uses up one draw of the model. -/
def State.afterRead (s : State) : Reg → State
  | .dataIn => s
  | .dataOut => s
  | .set => { s with draws := s.draws + 1 }
  | .clear => { s with draws := s.draws + 1 }
  | .debEn => s
  | .debTime => s
  | .oe => s

/-- The bank after a write of `v` to register `r` (R34); `none` for DATAIN, which has no defined effect. -/
def Bank.write (k : Bank) (r : Reg) (v : Word) : Option Bank :=
  match r with
  | .dataIn => none
  | .dataOut => some { k with dataOut := v }
  | .set => some { k with dataOut := k.dataOut ||| v }
  | .clear => some { k with dataOut := k.dataOut &&& ~~~v }
  | .debEn => some { k with debEn := v }
  | .debTime => some { k with debTime := v }
  | .oe => some { k with oe := v }

/-- `BankRead(b, r)` as one micro-step of instruction `i`, which goes on with `k` (R33). -/
def State.readThen (s : State) (i : Instr) (b : BankId) (r : Reg) (k : Word → State → Result) : Result :=
  match s.gate b with
  | .undefinedAccess => .fault .useAfterClose
  | .hang => .next (s.hold i)
  | .busError => .next (s.raise .transientIO)
  | .pass => k (s.readWord b r) (s.afterRead r)

/-- `BankWrite(b, r, v)` as one micro-step of instruction `i`, which goes on with `k`; `onError` is what the
command undoes before a bus error is reported (R34, R88). -/
def State.writeThen (s : State) (i : Instr) (b : BankId) (r : Reg) (v : Word) (onError : State → State)
    (k : State → Result) : Result :=
  match s.gate b with
  | .undefinedAccess => .fault .useAfterClose
  | .hang => .next (s.hold i)
  | .busError => .next ((onError s).raise .transientIO)
  | .pass =>
    match (s.bank b).write r v with
    | none => .refused .dataInWrite
    | some x => k (s.setBank b x)

/-- `WritePhys(b, m, p)` (R77), after which the command ends with OK. -/
def State.writePhys (s : State) (i : Instr) (b : BankId) (m : Word) (p : Bool) : Result :=
  s.writeThen i b (if p then .set else .clear) m id (fun t => .next (t.respond .ok 0))

/-! ### The map (R65, R66) -/

/-- `OpenProcedure()` (R65). -/
def State.openProcedure (s : State) : State :=
  { s with map := if identified s.cfg then .opened else .failed }

/-- The lazy open at the head of `RequireMap` (R66). -/
def State.lazyOpen (s : State) : State :=
  if s.map = .unopened then s.openProcedure else s

/-- `RequireMap()` (R66), after which the command goes on with `k`. -/
def State.requireMap (s : State) (k : State → Result) : Result :=
  match s.lazyOpen.map with
  | .failed => .next (s.lazyOpen.raise .hardwareIncompatible)
  | .closed => .fault .useAfterClose
  | .opened => k s.lazyOpen
  | .unopened => k s.lazyOpen

/-- What the host has done when it answers `Export(num)` with ok (R27): the bank's clock runs. -/
def State.startClock (s : State) (b : BankId) : State :=
  s.setBank b { s.bank b with clkEn := true }

/-! ### The handle check and the lock -/

/-- The handle check (R74), after which the command goes on with the Pin in the slot. -/
def State.withHandle (s : State) (h : BitVec 8) (k : Pin → Result) : Result :=
  if (s.pin h).valid then k (s.pin h) else .next (s.raise .invalidOperation)

/-- A locked micro-step of instruction `i` on Collection `c` (R48): enabled only while the lock is free. -/
def State.withLock (s : State) (i : Instr) (c : Nat) (k : Collection → Result) : Result :=
  match (s.coll c).lock with
  | .free => k (s.coll c)
  | .held _ => .next (s.hold i)

/-- `LOCK[c] <- x`. -/
def State.setLock (s : State) (c : Nat) (x : Lock) : State :=
  s.setColl c { s.coll c with lock := x }

/-! ### The byte view of the pages (R32, R42) -/

/-- Byte `k` of a word in the little-endian order of rule R42: bits `8k+7 : 8k`. -/
def byteOfWord (w : Word) (k : Nat) : Byte := w.extractLsb' (8 * k) 8

/-- All pairs of a bank and a register. -/
def busWords : List (BankId × Reg) :=
  [0, 1, 2, 3].flatMap fun b =>
    [.dataIn, .dataOut, .set, .clear, .debEn, .debTime, .oe].map fun r => (b, r)

/-- The bank and the register whose word holds physical address `a`, if a register does (R32). -/
def busDecode (cfg : Config) (a : Nat) : Option (BankId × Reg) :=
  busWords.find? fun x => decide (regAddress cfg x.1 x.2 ≤ a) && decide (a < regAddress cfg x.1 x.2 + 4)

/-- The stored word of a register; `none` for SET and CLEAR, which store nothing (R22). -/
def Bank.stored (k : Bank) : Reg → Option Word
  | .dataIn => some k.padIn
  | .dataOut => some k.dataOut
  | .set => none
  | .clear => none
  | .debEn => some k.debEn
  | .debTime => some k.debTime
  | .oe => some k.oe

/-- The byte at physical address `a`: `none` where no named register stands, and for SET and CLEAR. -/
def State.busByte (s : State) (a : Nat) : Option Byte :=
  match busDecode s.cfg a with
  | none => none
  | some (b, r) => ((s.bank b).stored r).map fun w => byteOfWord w (a - regAddress s.cfg b r)

/-- What the outside world sees of pin `n` (R52): the latch bit while the pin's direction is OUT. What a pad
does while its pin is IN is outside the spec. -/
def State.padLevel (s : State) (n : BitVec 7) : Option Bool :=
  match directionOf s.cfg (s.bank (pinBank n)).oe (pinBit n) with
  | .output => some ((s.bank (pinBank n)).dataOut.getLsbD (pinBit n))
  | .input => none

end Sys2Proof.Machine
end

