-- ==== Sys2Proof/Machine/BatchFamily.lean ====
section
/-! DEFINITION. The Batch Transaction Collection commands: BEGIN, COMMIT, GETPEND, and SETSTATE on a pin of
a Collection (42_batch.md). -/

namespace Sys2Proof.Machine

/-- BEGIN (R86). -/
def execBegin (c : BitVec 8) (s : State) : Result :=
  s.withLock (.beginTx c) c.toNat fun x =>
    .next ((s.setColl c.toNat { x with recording := true }).respond .ok 0)

/-- M1 of SETSTATE on a pin of a Collection (R87), after the handle check. -/
def setstateBatch (h : BitVec 8) (v : Bool) (p : Pin) (s : State) : Result :=
  s.withLock (.setstate h v) p.coll.toNat fun x =>
    if x.recording then
      .next ((s.setColl p.coll.toNat (x.buffer p.bank p.mask (p.physical v))).respond .ok 0)
    else
      .next (s.enter (.setstate h v) 2
        { Temps.none with bank := p.bank, mask := p.mask, phys := p.physical v })

/-- COMMIT's first micro-step (R88, M1). -/
def commitTake (c : BitVec 8) (s : State) : Result :=
  s.withLock (.commit c) c.toNat fun _ =>
    s.requireMap fun t =>
      .next ((t.setLock c.toNat (.held t.turn.port)).enter (.commit c) 2 Temps.none)

/-- COMMIT's write micro-steps (R88, M2 to M9): at a bus error the lock is released and the masks kept. -/
def commitWrite (c : BitVec 8) (b : BankId) (d : Drive) (s : State) : Result :=
  s.writeThen (.commit c) b (driveRegister d) ((s.coll c.toNat).commitWord b d)
    (fun t => t.setLock c.toNat .free)
    fun t => .next (t.enter (.commit c) (t.mstep + 1) Temps.none)

/-- COMMIT's last micro-step (R88, M10). -/
def commitRelease (c : BitVec 8) (s : State) : Result :=
  .next ((s.setColl c.toNat Collection.idle).respond .ok 0)

/-- COMMIT (R88, R96): M1 takes the lock, each following micro-step makes the next write of `COMMIT_ORDER`,
and the micro-step after the last write releases the lock. -/
def execCommit (c : BitVec 8) (s : State) : Result :=
  match s.mstep with
  | 0 => commitTake c s
  | 1 => commitTake c s
  | k + 2 =>
    match s.cfg.commitOrder[k]? with
    | some (b, d) => commitWrite c b d s
    | none => commitRelease c s

/-- GETPEND (R89). -/
def execGetpend (h : BitVec 8) (s : State) : Result :=
  s.withHandle h fun p =>
    if p.ic then
      s.withLock (.getpend h) p.coll.toNat fun x => .next (s.respond .ok (x.pending p))
    else .next (s.raise .invalidOperation)

end Sys2Proof.Machine
end

