-- ==== Sys2Proof/Machine/PinFamily.lean ====
section
/-! DEFINITION. The Direct Pin commands: PINNEW, SETSTATE, GETSTATE, CHKDIR, SETDEB (41_direct_pin.md). -/

namespace Sys2Proof.Machine

/-- PINNEW (R75). Past M1 the pin number is below 128, so its low seven bits are the number. -/
def execPinnew (h : BitVec 8) (ic : Bool) (coll : BitVec 7) (num : BitVec 8) (s : State) : Result :=
  match s.mstep with
  | 2 =>
    if s.turn.exportOk then
      .next ((s.startClock (pinBank (num.setWidth 7))).enter (.pinnew h ic coll num) 3 Temps.none)
    else .next (s.raise .resourceUnavailable)
  | 3 => .next ((s.setPin h (Pin.bound (num.setWidth 7) ic coll)).respond .ok 0)
  | _ =>
    if 127 < num.toNat then .next (s.raise .invalidOperation)
    else s.requireMap fun t => .next (t.enter (.pinnew h ic coll num) 2 Temps.none)

/-- SETSTATE (R78 for a free pin, R87 for a pin of a Collection). -/
def execSetstate (h : BitVec 8) (v : Bool) (s : State) : Result :=
  match s.mstep with
  | 2 => s.writePhys (.setstate h v) s.temps.bank s.temps.mask s.temps.phys
  | _ =>
    s.withHandle h fun p =>
      if p.ic then setstateBatch h v p s
      else s.writePhys (.setstate h v) p.bank p.mask (p.physical v)

/-- The first micro-step of GETSTATE and SETACTLOW (R79, R99): the direction is read and carried to M2. -/
def readDirection (i : Instr) (h : BitVec 8) (s : State) : Result :=
  s.withHandle h fun p =>
    s.readThen i p.bank .oe fun oe t =>
      .next (t.enter i 2 { Temps.none with dir := directionOf t.cfg oe p.bit })

/-- GETSTATE (R79). -/
def execGetstate (h : BitVec 8) (s : State) : Result :=
  match s.mstep with
  | 2 =>
    s.readThen (.getstate h) (s.pin h).bank (levelRegister s.temps.dir) fun w t =>
      .next (t.respond .ok (boolData ((s.pin h).logical (w.getLsbD (s.pin h).bit))))
  | _ => readDirection (.getstate h) h s

/-- CHKDIR (R80). -/
def execChkdir (h : BitVec 8) (s : State) : Result :=
  s.withHandle h fun p =>
    s.readThen (.chkdir h) p.bank .oe fun oe t =>
      .next (t.respond .ok (directionData (directionOf t.cfg oe p.bit)))

/-- SETDEB (R81). The pin's number is read at M1 only, so its bank and mask are carried from there
(R75: a command reads a slot at the micro-steps its rule names; assumption log 32). -/
def execSetdeb (h : BitVec 8) (v : Bool) (s : State) : Result :=
  match s.mstep with
  | 2 =>
    s.readThen (.setdeb h v) s.temps.bank .debEn fun w t =>
      .next (t.enter (.setdeb h v) 3 { s.temps with word := w })
  | 3 =>
    s.writeThen (.setdeb h v) s.temps.bank .debEn
      (if v then s.temps.word ||| s.temps.mask else s.temps.word &&& ~~~s.temps.mask) id
      fun t => .next (t.respond .ok 0)
  | _ =>
    s.withHandle h fun p =>
      s.readThen (.setdeb h v) p.bank .oe fun oe t =>
        match directionOf t.cfg oe p.bit with
        | .output => .next (t.raise .invalidOperation)
        | .input => .next (t.enter (.setdeb h v) 2 { Temps.none with bank := p.bank, mask := p.mask })

end Sys2Proof.Machine
end

