-- ==== Sys2Proof/Machine/CapabilityFamily.lean ====
section
/-! DEFINITION. The Pin Capability Interface commands: SETIMM, SETACTLOW (43_capability.md). -/

namespace Sys2Proof.Machine

/-- SETIMM (R98). -/
def execSetimm (h : BitVec 8) (v : Bool) (s : State) : Result :=
  s.withHandle h fun p => s.writePhys (.setimm h v) p.bank p.mask (p.physical v)

/-- SETACTLOW (R99). -/
def execSetactlow (h : BitVec 8) (v : Bool) (s : State) : Result :=
  match s.mstep with
  | 2 =>
    s.readThen (.setactlow h v) (s.pin h).bank (levelRegister s.temps.dir) fun w t =>
      .next (t.enter (.setactlow h v) 3
        { s.temps with
          level := (s.pin h).logical (w.getLsbD (s.pin h).bit), old := (s.pin h).al })
  | 3 =>
    if v = s.temps.old then .next ((s.setPin h { s.pin h with al := v }).respond .ok 0)
    else .next ((s.setPin h { s.pin h with al := v }).enter (.setactlow h v) 4 s.temps)
  | 4 => s.writePhys (.setactlow h v) (s.pin h).bank (s.pin h).mask (s.temps.level ^^ v)
  | _ => readDirection (.setactlow h v) h s

end Sys2Proof.Machine
end

