-- ==== Sys2Proof/Machine/MapFamily.lean ====
section
/-! DEFINITION. The Register Bank Map commands: MAPOPEN, MAPCLOSE, REGRD, REGWR (40_map.md). -/

namespace Sys2Proof.Machine

/-- MAPOPEN (R67). -/
def execMapopen (s : State) : Result :=
  match s.map with
  | .unopened =>
    if s.openProcedure.map = .opened then .next (s.openProcedure.respond .ok 0)
    else .next (s.openProcedure.raise .hardwareIncompatible)
  | .opened => .next (s.respond .ok 0)
  | .failed => .next (s.raise .hardwareIncompatible)
  | .closed => .next (s.raise .invalidOperation)

/-- MAPCLOSE (R68). -/
def execMapclose (s : State) : Result :=
  match s.map with
  | .opened => .next ({ s with map := .closed }.respond .ok 0)
  | .closed => .next (s.respond .ok 0)
  | .unopened => .next (s.respond .ok 0)
  | .failed => .next (s.respond .ok 0)

/-- REGRD (R69). -/
def execRegrd (bank : BankId) (reg : Reg) (s : State) : Result :=
  match s.mstep with
  | 2 => s.readThen (.regrd bank reg) bank reg fun w t => .next (t.respond .ok w)
  | _ => s.requireMap fun t => .next (t.enter (.regrd bank reg) 2 Temps.none)

/-- REGWR (R70). -/
def execRegwr (bank : BankId) (reg : Reg) (wdata : Word) (s : State) : Result :=
  match s.mstep with
  | 2 => s.writeThen (.regwr bank reg wdata) bank reg wdata id fun t => .next (t.respond .ok 0)
  | _ => s.requireMap fun t => .next (t.enter (.regwr bank reg wdata) 2 Temps.none)

end Sys2Proof.Machine
end

