-- ==== Sys2Proof/Machine/Dispatch.lean ====
section
/-! DEFINITION. One micro-step of an instruction by the port whose turn it is: one arm per instruction. -/

namespace Sys2Proof.Machine

def exec (i : Instr) (s : State) : Host.Outcome State Fault Refusal :=
  match i with
  | .mapopen => Sys2Proof.Machine.execMapopen s
  | .mapclose => Sys2Proof.Machine.execMapclose s
  | .regrd bank reg => Sys2Proof.Machine.execRegrd bank reg s
  | .regwr bank reg wdata => Sys2Proof.Machine.execRegwr bank reg wdata s
  | .pinnew h ic coll num => Sys2Proof.Machine.execPinnew h ic coll num s
  | .setstate h v => Sys2Proof.Machine.execSetstate h v s
  | .setimm h v => Sys2Proof.Machine.execSetimm h v s
  | .getstate h => Sys2Proof.Machine.execGetstate h s
  | .chkdir h => Sys2Proof.Machine.execChkdir h s
  | .setactlow h v => Sys2Proof.Machine.execSetactlow h v s
  | .setdeb h v => Sys2Proof.Machine.execSetdeb h v s
  | .beginTx c => Sys2Proof.Machine.execBegin c s
  | .commit c => Sys2Proof.Machine.execCommit c s
  | .getpend h => Sys2Proof.Machine.execGetpend h s

end Sys2Proof.Machine
end

