-- ==== Sys2Proof/WellFormed.lean ====
section
/-! DEFINITION. Which instructions and which configurations are legal. -/

namespace Sys2Proof

/-- The legality conditions of rules R57 and R59 that a term of `Instr` can break: a handle below `NH`, a
Collection below `NCOLL`, and `coll = 0` for a pin that is not created through a Collection. -/
def Instr.wellFormed (cfg : Config) : Instr → Bool
  | .mapopen => true
  | .mapclose => true
  | .regrd _ _ => true
  | .regwr _ _ _ => true
  | .pinnew h ic coll _ =>
    decide (h.toNat < cfg.nh) && (if ic then decide (coll.toNat < cfg.ncoll) else decide (coll = 0))
  | .setstate h _ => decide (h.toNat < cfg.nh)
  | .setimm h _ => decide (h.toNat < cfg.nh)
  | .getstate h => decide (h.toNat < cfg.nh)
  | .chkdir h => decide (h.toNat < cfg.nh)
  | .setactlow h _ => decide (h.toNat < cfg.nh)
  | .setdeb h _ => decide (h.toNat < cfg.nh)
  | .beginTx c => decide (c.toNat < cfg.ncoll)
  | .commit c => decide (c.toNat < cfg.ncoll)
  | .getpend h => decide (h.toNat < cfg.nh)

/-- The seven offsets as a list, in the order of rule R56. -/
def RegOffsets.toList (o : RegOffsets) : List Nat :=
  [o.dataIn, o.dataOut, o.set, o.clear, o.debEn, o.debTime, o.oe]

/-- The four bases as a list. -/
def PerBank.toList {α : Type} (q : PerBank α) : List α := [q.b0, q.b1, q.b2, q.b3]

/-- `COMMIT_ORDER` is "a fixed ordering of the eight pairs (bank, register)", each pair once (R88). -/
abbrev Config.commitOrderLegal (cfg : Config) : Prop :=
  cfg.commitOrder.length = 8 ∧ cfg.commitOrder.Nodup

/-- What rule R51 asks of a layout: the seven offsets distinct, each a multiple of 4 and below 4096; and, of
the pages, that they are disjoint, each base a multiple of 4096 (R43). -/
abbrev Config.layoutLegal (cfg : Config) : Prop :=
  (∀ o ∈ cfg.regOff.toList, o % 4 = 0 ∧ o < 4096) ∧ cfg.regOff.toList.Nodup ∧
  (∀ a ∈ cfg.bankBase.toList, a % 4096 = 0) ∧ cfg.bankBase.toList.Nodup

/-- The ranges that rule R7 gives the parameters, with the orders and the layout above. -/
abbrev Config.legal (cfg : Config) : Prop :=
  1 ≤ cfg.nreq ∧ 1 ≤ cfg.nh ∧ cfg.nh ≤ 256 ∧ cfg.ncoll ≤ 128 ∧ cfg.idPrefix.length = cfg.idLen ∧
  cfg.commitOrderLegal ∧ cfg.layoutLegal

end Sys2Proof
end

