-- ==== Sys2Proof/Decode.lean ====
section
/-! DEFINITION. The decoder of rules R54 to R63, total on every command word, and after it the encoder. -/

namespace Sys2Proof

/-- Why a command word is illegal: the cases of rule R59, in the order in which rule R63 tests them. -/
inductive DecodeError where
  /-- R59 item 1: `op` is none of the fourteen values. -/
  | unknownOpcode
  /-- R59 item 2: a must-be-zero bit of the format is 1. -/
  | mustBeZero
  /-- R59 item 3: register selector 7. -/
  | reservedRegister
  /-- R59 item 4: `ic = 0` and `coll` is not 0. -/
  | collectionWithoutIc
  /-- R59 item 5: `h` is not below `NH`. -/
  | handleRange
  /-- R59 item 6: `c` or `coll` is not below `NCOLL`. -/
  | collectionRange
deriving DecidableEq, Repr

/-- `op` = cmd[31:24] (R57). -/
def opField (w : Word) : BitVec 8 := w.extractLsb' 24 8

/-- `bank` = cmd[17:16] (R57). -/
def bankField (w : Word) : BankId := ⟨(w.extractLsb' 16 2).toNat, (w.extractLsb' 16 2).isLt⟩

/-- `h` of formats P and H and `c` of format C = cmd[23:16] (R57). -/
def handleField (w : Word) : BitVec 8 := w.extractLsb' 16 8

/-- `ic` = cmd[15] (R57). -/
def icField (w : Word) : Bool := w.getLsbD 15

/-- `coll` = cmd[14:8] (R57). -/
def collField (w : Word) : BitVec 7 := w.extractLsb' 8 7

/-- `num` = cmd[7:0] (R57). -/
def numField (w : Word) : BitVec 8 := w.extractLsb' 0 8

/-- `v` = cmd[0] (R57). -/
def vField (w : Word) : Bool := w.getLsbD 0

/-- The register that selector `reg` = cmd[2:0] names (R56); `none` for the reserved selector 7. -/
def regField (w : Word) : Option Reg :=
  match (w.extractLsb' 0 3).toNat with
  | 0 => some .dataIn
  | 1 => some .dataOut
  | 2 => some .set
  | 3 => some .clear
  | 4 => some .debEn
  | 5 => some .debTime
  | 6 => some .oe
  | _ => none

/-- Format N: bits 23:0 must be zero (R54). -/
def formatN (w : Word) (i : Instr) : Except DecodeError Instr :=
  if w.extractLsb' 0 24 = 0 then .ok i else .error .mustBeZero

/-- Format R: bits 23:18 and 15:3 must be zero, and the selector must name a register (R54, R56). -/
def formatR (w : Word) (mk : BankId → Reg → Instr) : Except DecodeError Instr :=
  if w.extractLsb' 18 6 = 0 ∧ w.extractLsb' 3 13 = 0 then
    match regField w with
    | some r => .ok (mk (bankField w) r)
    | none => .error .reservedRegister
  else .error .mustBeZero

/-- Format P: every field bit is an operand; with `ic = 0` the Collection must be 0 (R54, R59 item 4). -/
def formatP (w : Word) : Except DecodeError Instr :=
  if icField w = false ∧ collField w ≠ 0 then .error .collectionWithoutIc
  else .ok (.pinnew (handleField w) (icField w) (collField w) (numField w))

/-- Format H with a boolean: bits 15:1 must be zero (R54). -/
def formatHV (w : Word) (mk : BitVec 8 → Bool → Instr) : Except DecodeError Instr :=
  if w.extractLsb' 1 15 = 0 then .ok (mk (handleField w) (vField w)) else .error .mustBeZero

/-- Format H without a boolean, and format C: bits 15:0 must be zero (R54). -/
def formatHC (w : Word) (mk : BitVec 8 → Instr) : Except DecodeError Instr :=
  if w.extractLsb' 0 16 = 0 then .ok (mk (handleField w)) else .error .mustBeZero

/-- Tests 1 and 2 of rule R63: the opcode, then the must-be-zero bits and the reserved operand values. -/
def decodeShape (c : Command) : Except DecodeError Instr :=
  match (opField c.cmd).toNat with
  | 0x01 => formatN c.cmd .mapopen
  | 0x02 => formatN c.cmd .mapclose
  | 0x03 => formatR c.cmd .regrd
  | 0x04 => formatR c.cmd (fun b r => .regwr b r c.wdata)
  | 0x10 => formatP c.cmd
  | 0x11 => formatHV c.cmd .setstate
  | 0x12 => formatHV c.cmd .setimm
  | 0x13 => formatHC c.cmd .getstate
  | 0x14 => formatHC c.cmd .chkdir
  | 0x15 => formatHV c.cmd .setactlow
  | 0x16 => formatHV c.cmd .setdeb
  | 0x20 => formatHC c.cmd .beginTx
  | 0x21 => formatHC c.cmd .commit
  | 0x22 => formatHC c.cmd .getpend
  | _ => .error .unknownOpcode

/-- Items 5 and 6 of rule R59 for a handle and a Collection index. -/
def handleError (cfg : Config) (h : BitVec 8) : Option DecodeError :=
  if h.toNat < cfg.nh then none else some .handleRange

/-- See `handleError`. -/
def collectionError (cfg : Config) (c : Nat) : Option DecodeError :=
  if c < cfg.ncoll then none else some .collectionRange

/-- Test 3 of rule R63: `h`, `c` and `coll` against `NH` and `NCOLL`. -/
def rangeError (cfg : Config) : Instr → Option DecodeError
  | .mapopen => none
  | .mapclose => none
  | .regrd _ _ => none
  | .regwr _ _ _ => none
  | .pinnew h ic coll _ =>
    (handleError cfg h).or (if ic then collectionError cfg coll.toNat else none)
  | .setstate h _ => handleError cfg h
  | .setimm h _ => handleError cfg h
  | .getstate h => handleError cfg h
  | .chkdir h => handleError cfg h
  | .setactlow h _ => handleError cfg h
  | .setdeb h _ => handleError cfg h
  | .beginTx c => collectionError cfg c.toNat
  | .commit c => collectionError cfg c.toNat
  | .getpend h => handleError cfg h

/-- The decoder (R59, R63): reads the command and the parameters, and nothing else. -/
def decode (cfg : Config) (c : Command) : Except DecodeError Instr :=
  match decodeShape c with
  | .error e => .error e
  | .ok i =>
    match rangeError cfg i with
    | some e => .error e
    | none => .ok i

/-- The selector of a register (R56). -/
def Reg.selector : Reg → BitVec 3
  | .dataIn => 0
  | .dataOut => 1
  | .set => 2
  | .clear => 3
  | .debEn => 4
  | .debTime => 5
  | .oe => 6

/-- A command of format N (R54). -/
def packN (op : BitVec 8) : Word := op ++ 0#24

/-- A command of format R (R54). -/
def packR (op : BitVec 8) (b : BankId) (r : Reg) : Word :=
  op ++ 0#6 ++ BitVec.ofNat 2 b.val ++ 0#13 ++ r.selector

/-- A command of format H with a boolean (R54). -/
def packHV (op h : BitVec 8) (v : Bool) : Word := op ++ h ++ 0#15 ++ BitVec.ofBool v

/-- A command of format H without a boolean, or of format C (R54). -/
def packHC (op h : BitVec 8) : Word := op ++ h ++ 0#16

/-- The command word of an instruction, from the opcode map of rule R55. -/
def encodeWord : Instr → Word
  | .mapopen => packN 0x01
  | .mapclose => packN 0x02
  | .regrd b r => packR 0x03 b r
  | .regwr b r _ => packR 0x04 b r
  | .pinnew h ic coll num => 0x10#8 ++ h ++ BitVec.ofBool ic ++ coll ++ num
  | .setstate h v => packHV 0x11 h v
  | .setimm h v => packHV 0x12 h v
  | .getstate h => packHC 0x13 h
  | .chkdir h => packHC 0x14 h
  | .setactlow h v => packHV 0x15 h v
  | .setdeb h v => packHV 0x16 h v
  | .beginTx c => packHC 0x20 c
  | .commit c => packHC 0x21 c
  | .getpend h => packHC 0x22 h

/-- The side operand of an instruction: only REGWR has one (R53). -/
def encodeWdata : Instr → Word
  | .regwr _ _ wdata => wdata
  | _ => 0

/-- The encoder: the command of a well-formed instruction. -/
def encode (i : Instr) : Command := ⟨encodeWord i, encodeWdata i⟩

/-- One row of the opcode map of rule R55: a word `w` is the command when `w &&& mask = value`. -/
structure OpcodeRow where
  mnemonic : String
  value : Word
  mask : Word
deriving DecidableEq, Repr

/-- The `match` and `mask` columns of rule R55. -/
def opcodeRow : Instr → OpcodeRow
  | .mapopen => ⟨"MAPOPEN", 0x01000000, 0xFFFFFFFF⟩
  | .mapclose => ⟨"MAPCLOSE", 0x02000000, 0xFFFFFFFF⟩
  | .regrd _ _ => ⟨"REGRD", 0x03000000, 0xFFFCFFF8⟩
  | .regwr _ _ _ => ⟨"REGWR", 0x04000000, 0xFFFCFFF8⟩
  | .pinnew _ _ _ _ => ⟨"PINNEW", 0x10000000, 0xFF000000⟩
  | .setstate _ _ => ⟨"SETSTATE", 0x11000000, 0xFF00FFFE⟩
  | .setimm _ _ => ⟨"SETIMM", 0x12000000, 0xFF00FFFE⟩
  | .getstate _ => ⟨"GETSTATE", 0x13000000, 0xFF00FFFF⟩
  | .chkdir _ => ⟨"CHKDIR", 0x14000000, 0xFF00FFFF⟩
  | .setactlow _ _ => ⟨"SETACTLOW", 0x15000000, 0xFF00FFFE⟩
  | .setdeb _ _ => ⟨"SETDEB", 0x16000000, 0xFF00FFFE⟩
  | .beginTx _ => ⟨"BEGIN", 0x20000000, 0xFF00FFFF⟩
  | .commit _ => ⟨"COMMIT", 0x21000000, 0xFF00FFFF⟩
  | .getpend _ => ⟨"GETPEND", 0x22000000, 0xFF00FFFF⟩

/-- The command of an opcode-table word: bits 31:0 are the command word, and bits from 32 on, if the table
gave any, are the side operand; every bit from `nbits` on is zero. -/
def tableCommand (nbits w : Nat) : Command :=
  ⟨BitVec.ofNat 32 (w % 2 ^ nbits), BitVec.ofNat 32 (w % 2 ^ nbits / 2 ^ 32)⟩

/-- What the decoder reads from a word of the opcode table, under the parameters of the vectors. -/
def decodeTableWord (nbits w : Nat) : Option Instr :=
  (decode Config.standard (tableCommand nbits w)).toOption

end Sys2Proof
end

