-- ==== Sys2Proof/Machine/Environment.lean ====
section
/-! DEFINITION. What happens around a micro-step: the host's moves, whose turn it is, which instruction a
port runs next, the placing of a command, and the reset of the block. -/

namespace Sys2Proof.Machine

/-- A free move of the host (R29). -/
def State.hostMove (s : State) : HostMove → State
  | .drivePads b levels => s.setBank b { s.bank b with padIn := levels }
  | .setDirections b oe => s.setBank b { s.bank b with oe := oe }
  | .startClock b => s.startClock b

/-- What the next step of the total order is (R45). -/
inductive NextTurn where
  /-- The port in `turn` of this state takes its next micro-step. -/
  | port (s : State)
  /-- The host has moved, and this is the state after it. -/
  | moved (s : State)
deriving Repr

/-- The turn of the next port in rotation, with the draws that the host last made (assumption log 3). -/
def State.rotated (s : State) : PortTurn :=
  { s.turn with port := (s.turn.port + 1) % s.ports.length }

/-- Take the next turn off the queue. With no turn queued the ports go in rotation, so that a port whose
micro-step stays enabled is eventually run (R140; assumption log 3). -/
def State.takeTurn (s : State) : NextTurn :=
  match s.turns with
  | [] => .port { s with turn := s.rotated }
  | .port t :: ts => .port { s with turn := t, turns := ts }
  | .host m :: ts => .moved ({ s with turns := ts }.hostMove m)

/-- What the port whose turn it is has to do. -/
inductive Fetched where
  /-- There is no such port, or its command list is finished (R20). -/
  | idle
  /-- It presents a command that does not decode. -/
  | illegal (e : DecodeError)
  /-- It runs a micro-step of this instruction: the one in flight, or else the command it presents. -/
  | instr (i : Instr)
deriving DecidableEq, Repr

/-- The command that a port with nothing in flight presents next (R20). -/
def Port.nextCommand (p : Port) : Option Command := p.prog[p.idx]?

/-- Decoding of a presented command (R63). -/
def fetchCommand (cfg : Config) : Option Command → Fetched
  | none => .idle
  | some c =>
    match decode cfg c with
    | .error e => .illegal e
    | .ok i => .instr i

/-- What the port whose turn it is has to do (R20). -/
def State.fetch (s : State) : Fetched :=
  match s.ports[s.turn.port]? with
  | none => .idle
  | some p =>
    match p.flight with
    | some f => .instr f.instr
    | none => fetchCommand s.cfg p.nextCommand

/-- The command list `prog` with `c` as its entry `n`; entries that the list lacks below `n` become the
illegal word 0. -/
def placeAt (prog : List Command) (n : Nat) (c : Command) : List Command :=
  prog.take n ++ List.replicate (n - prog.length) ⟨0, 0⟩ ++ c :: prog.drop (n + 1)

/-- The command `c` placed where the next step fetches: it becomes the next command of the next port in
rotation, with nothing in flight there, and that port goes first if turns are queued (assumption log 15). -/
def State.placeCommand (s : State) (c : Command) : State :=
  let t := s.rotated
  let p := s.ports.getD t.port (Port.start [])
  { s with
    turns := if s.turns.isEmpty then [] else .port t :: s.turns
    ports := s.ports.set t.port { p with prog := placeAt p.prog p.idx c, flight := none } }

/-- No command is in flight on any port: when the block may be reset (R127). -/
def State.quiet (s : State) : Bool := s.ports.all fun p => p.flight.isNone

/-- The block's one reset (R127), meant for a quiet state: the block's own state becomes that of rule R31,
and the banks and the host's state keep what they have. It is no step of a run (R29). -/
def State.blockReset (s : State) : State :=
  { s with
    map := .unopened
    pins := List.replicate s.cfg.nh Pin.empty
    colls := List.replicate s.cfg.ncoll Collection.idle
    ports := s.ports.map fun p => Port.start p.prog }

end Sys2Proof.Machine
end

