-- ==== Sys2Proof/Machine/Step.lean ====
section
/-! DEFINITION. One step of the machine: a micro-step of one port, or a move of the host (R45). -/

namespace Sys2Proof.Machine

/-- The micro-step of the port whose turn it is. A port with nothing to do leaves the state as it is, and a
command that does not decode is answered with IllegalCommand and changes nothing else (R111). -/
def runPort (s : State) : Host.Outcome State Fault Refusal :=
  match s.fetch with
  | .idle => .next s
  | .illegal _ => .next (s.raise .illegalCommand)
  | .instr i => exec i s

/-- One step of the total order (R45). -/
def step (s : State) : Host.Outcome State Fault Refusal :=
  match s.takeTurn with
  | .port t => runPort t
  | .moved t => .next t

/-- `s` with the command of an opcode-table word placed where `step` fetches its next instruction. -/
def State.withFetchWord (s : State) (nbits w : Nat) : State :=
  s.placeCommand (tableCommand nbits w)

end Sys2Proof.Machine
end

