-- ==== Sys2Proof/Machine/Requester.lean ====
section
/-! DEFINITION. The requester's side: assembler syntax (R61) and the pseudo-command REGRMW (R62). -/

namespace Sys2Proof.Machine

/-- The name of a register in assembler text (R56, R61). -/
def regName : Reg → String
  | .dataIn => "DATAIN"
  | .dataOut => "DATAOUT"
  | .set => "SET"
  | .clear => "CLEAR"
  | .debEn => "DEBEN"
  | .debTime => "DEBTIME"
  | .oe => "OE"

/-- A mnemonic with one numeric operand. -/
def asm1 (mnemonic : String) (a : Nat) : String := mnemonic ++ " " ++ toString a

/-- A mnemonic with a handle and a boolean. -/
def asm2 (mnemonic : String) (h : Nat) (v : Bool) : String :=
  asm1 mnemonic h ++ ", " ++ toString v.toNat

/-- A command in the assembler syntax of rule R61, numbers in decimal. -/
def asm : Instr → String
  | .mapopen => "MAPOPEN"
  | .mapclose => "MAPCLOSE"
  | .regrd b r => asm1 "REGRD" b.val ++ ", " ++ regName r
  | .regwr b r w => asm1 "REGWR" b.val ++ ", " ++ regName r ++ ", " ++ toString w.toNat
  | .pinnew h ic coll num =>
    asm1 "PINNEW" h.toNat ++ ", " ++ toString num.toNat ++
      (if ic then ", @" ++ toString coll.toNat else "")
  | .setstate h v => asm2 "SETSTATE" h.toNat v
  | .setimm h v => asm2 "SETIMM" h.toNat v
  | .getstate h => asm1 "GETSTATE" h.toNat
  | .chkdir h => asm1 "CHKDIR" h.toNat
  | .setactlow h v => asm2 "SETACTLOW" h.toNat v
  | .setdeb h v => asm2 "SETDEB" h.toNat v
  | .beginTx c => asm1 "BEGIN" c.toNat
  | .commit c => asm1 "COMMIT" c.toNat
  | .getpend h => asm1 "GETPEND" h.toNat

/-- The first command of `REGRMW b, REG, mask, value` (R62). -/
def regRmwRead (b : BankId) (r : Reg) : Instr := .regrd b r

/-- The second command of `REGRMW b, REG, mask, value` (R62), once the first has answered with word `w`. The
two are separate commands: the block has no atomic read-modify-write (R71). -/
def regRmwWrite (b : BankId) (r : Reg) (mask value w : Word) : Instr :=
  .regwr b r ((w &&& ~~~mask) ||| (value &&& mask))

end Sys2Proof.Machine
end

