-- ==== Sys2Proof/Machine/Observation.lean ====
section
/-! DEFINITION. The end of a run and its observable result (R142): the responses that each port was given,
the final registers of the banks, and the block's own state. -/

namespace Sys2Proof.Machine

/-- A port has answered its whole command list and has nothing in flight (R20, R142). -/
def Port.finished (p : Port) : Bool := p.idx == p.prog.length && p.flight.isNone

/-- A run is finished when every port is (R142). -/
def State.finished (s : State) : Bool := s.ports.all Port.finished

/-- The response delivered to port `p` between two states, if one was: its index has advanced (R20, R25). -/
def delivered (p : Nat) (s t : State) : List Response :=
  match s.ports[p]?, t.ports[p]? with
  | some a, some b => if a.idx < b.idx then [b.rsp] else []
  | _, _ => []

/-- The responses delivered to port `p` in a run of `n` steps from `s`, in order (R142). A run that stops at a
fault or a refusal has those that came before. -/
def responses (p : Nat) : Nat → State → List Response
  | 0, _ => []
  | n + 1, s =>
    match step s with
    | .next t => delivered p s t ++ responses p n t
    | .fault _ => []
    | .refused _ => []

/-- The observable result of a finished run (R142). -/
structure Observation where
  /-- Each port's list of responses. -/
  responses : List (List Response)
  /-- The final `DATAOUT[0..3]`. -/
  dataOut : PerBank Word
  /-- The final `DEBEN[0..3]`. -/
  debEn : PerBank Word
  /-- The final `DEBTIME[0..3]`. -/
  debTime : PerBank Word
  /-- The final `OE[0..3]`. -/
  oe : PerBank Word
  /-- The block's own state (R13): `MAPSTATE`. -/
  map : MapState
  /-- The block's own state: the slots. -/
  pins : List Pin
  /-- The block's own state: the Collections, their masks and their locks. -/
  colls : List Collection
  /-- The block's own state: the ports. -/
  ports : List Port
deriving DecidableEq, Repr

/-- One thing of each bank. -/
def State.eachBank {α : Type} (s : State) (f : Bank → α) : PerBank α :=
  ⟨f s.banks.b0, f s.banks.b1, f s.banks.b2, f s.banks.b3⟩

/-- What is observed of a run that ended in `s` with the given responses. -/
def State.observation (s : State) (r : List (List Response)) : Observation where
  responses := r
  dataOut := s.eachBank Bank.dataOut
  debEn := s.eachBank Bank.debEn
  debTime := s.eachBank Bank.debTime
  oe := s.eachBank Bank.oe
  map := s.map
  pins := s.pins
  colls := s.colls
  ports := s.ports

/-- The observable result of a run of `n` steps from `s`: `none` unless the run is finished then, so that a run
in which a port hangs, waits, or has met UNDEFINED has none (R142). -/
def observe (n : Nat) (s : State) : Option Observation :=
  match Host.Core.run Sys2Proof.core n s with
  | .next t =>
    if t.finished then some (t.observation ((List.range s.ports.length).map fun p => responses p n s))
    else none
  | .fault _ => none
  | .refused _ => none

end Sys2Proof.Machine
end

