-- ==== Sys2Proof/Safety.lean ====
section
/-! DEFINITION. The words in which statements speak of runs: a command's run, a finished run, the
conditions under which a command runs undisturbed, and the invariants of the machine. -/

namespace Sys2Proof.Machine

/-! ### Runs -/

/-- `n` micro-steps of instruction `i` by the port whose turn it is, with nothing in between, stopping at a
fault or a refusal. -/
def runInstr (i : Instr) : Nat → State → Result
  | 0, s => .next s
  | n + 1, s =>
    match exec i s with
    | .next t => runInstr i n t
    | .fault f => .fault f
    | .refused r => .refused r

/-- The turn that the next step takes, if the next step is a port's. -/
def State.nextTurn (s : State) : Option PortTurn :=
  match s.turns with
  | [] => some s.rotated
  | .port t :: _ => some t
  | .host _ :: _ => none

/-- The port that takes the next step's micro-step, if the next step is a port's. -/
def State.nextPort (s : State) : Option Nat := s.nextTurn.map PortTurn.port

/-- `s` with the turn `t` given and the first of the queued turns, if any, used up. -/
def State.taking (s : State) (t : PortTurn) : State := { s with turn := t, turns := s.turns.tail }

/-! ### Conditions on a state -/

/-- The port whose turn it is exists and stands at M1: it has nothing in flight, or a command that has waited
at its first micro-step (assumption log 23). -/
structure State.Ready (s : State) : Prop where
  exists_port : s.turn.port < s.ports.length
  first : s.mstep = 1

/-- An access to bank `b` is made and answered: the map is open, the bank's clock runs and the host draws no
bus error (R33, R34). -/
structure State.Accessible (s : State) (b : BankId) : Prop where
  opened : s.map = .opened
  clocked : (s.bank b).clkEn = true
  noBusError : s.turn.busError = false

/-- The direction of a pin is OUT (R41). -/
def State.isOut (s : State) (p : Pin) : Prop :=
  (s.bank p.bank).oe.getLsbD p.bit = s.cfg.oeOutLevel

/-- The four identification strings begin with the expected prefix (R65). -/
def EveryBankIdentified (cfg : Config) : Prop :=
  ∀ b, ∃ str, cfg.idStr.get b = some str ∧ cfg.idLen ≤ str.length ∧ str.take cfg.idLen = cfg.idPrefix

/-- `s'` is `s` but for the port whose turn it is, and of that port the command list is the same. -/
def State.onlyPort (s s' : State) : Prop :=
  ∃ q : Port, q.prog = s.port.prog ∧ s' = s.setPort q

/-- The level that GETSTATE reads for a pin (R79): the latch bit of an OUT pin, the data-in bit of an IN pin. -/
def State.levelOf (s : State) (p : Pin) : Bool :=
  if (s.bank p.bank).oe.getLsbD p.bit = s.cfg.oeOutLevel then (s.bank p.bank).dataOut.getLsbD p.bit
  else (s.bank p.bank).padIn.getLsbD p.bit

/-- A word with the bits of `m` made 1 (`p = true`) or 0 (`p = false`), as SET and CLEAR do (R37, R38). -/
def driven (w m : Word) (p : Bool) : Word := if p then w ||| m else w &&& ~~~m

/-- `s` with the latch of bank `b` driven by the mask `m` to the level `p` (R77). -/
def State.drive (s : State) (b : BankId) (m : Word) (p : Bool) : State :=
  s.setBank b { s.bank b with dataOut := driven (s.bank b).dataOut m p }

/-! ### What a micro-step needs -/

/-- The handle of a command of format H (R54, R74). -/
def handleOf : Instr → Option (BitVec 8)
  | .mapopen => none
  | .mapclose => none
  | .regrd _ _ => none
  | .regwr _ _ _ => none
  | .pinnew _ _ _ _ => none
  | .setstate h _ => some h
  | .setimm h _ => some h
  | .getstate h => some h
  | .chkdir h => some h
  | .setactlow h _ => some h
  | .setdeb h _ => some h
  | .beginTx _ => none
  | .commit _ => none
  | .getpend h => some h

/-- The bank of the pin in slot `h`, if the slot is valid. -/
def State.validBank (s : State) (h : BitVec 8) : Option BankId :=
  if (s.pin h).valid then some (s.pin h).bank else none

/-- The bank that the next micro-step of instruction `i` accesses, if it makes a bank access: read off the
micro-steps of the commands' rules. -/
def nextAccess (i : Instr) (s : State) : Option BankId :=
  match i with
  | .mapopen => none
  | .mapclose => none
  | .regrd b _ => if s.mstep = 2 then some b else none
  | .regwr b _ _ => if s.mstep = 2 then some b else none
  | .pinnew _ _ _ _ => none
  | .setstate h _ =>
    if s.mstep = 2 then some s.temps.bank else if (s.pin h).ic then none else s.validBank h
  | .setimm h _ => s.validBank h
  | .getstate h => if s.mstep = 2 then some (s.pin h).bank else s.validBank h
  | .chkdir h => s.validBank h
  | .setactlow h _ =>
    if s.mstep = 3 then none
    else if s.mstep = 2 ∨ s.mstep = 4 then some (s.pin h).bank else s.validBank h
  | .setdeb h _ => if s.mstep = 2 ∨ s.mstep = 3 then some s.temps.bank else s.validBank h
  | .beginTx _ => none
  | .commit _ => if s.mstep < 2 then none else (s.cfg.commitOrder[s.mstep - 2]?).map Prod.fst
  | .getpend _ => none

/-- The next micro-step of instruction `i` is one that begins with `RequireMap`, and gets to it (R66). -/
def needsMap (i : Instr) (s : State) : Prop :=
  match i with
  | .mapopen => False
  | .mapclose => False
  | .regrd _ _ => s.mstep ≠ 2
  | .regwr _ _ _ => s.mstep ≠ 2
  | .pinnew _ _ _ num => s.mstep ≠ 2 ∧ s.mstep ≠ 3 ∧ num.toNat ≤ 127
  | .setstate _ _ => False
  | .setimm _ _ => False
  | .getstate _ => False
  | .chkdir _ => False
  | .setactlow _ _ => False
  | .setdeb _ _ => False
  | .beginTx _ => False
  | .commit c => s.mstep < 2 ∧ (s.coll c.toNat).lock = .free
  | .getpend _ => False

/-- The single-bit write `WritePhys(b, m, p)` of rule R77 that the next micro-step of instruction `i` makes, if
its access goes through: the bank, the mask and the level, read off the commands' rules. -/
def physWrite (i : Instr) (s : State) : Option (BankId × Word × Bool) :=
  match i with
  | .mapopen => none
  | .mapclose => none
  | .regrd _ _ => none
  | .regwr _ _ _ => none
  | .pinnew _ _ _ _ => none
  | .setstate h v =>
    if s.mstep = 2 then some (s.temps.bank, s.temps.mask, s.temps.phys)
    else if (s.pin h).valid ∧ (s.pin h).ic = false then
      some ((s.pin h).bank, (s.pin h).mask, (s.pin h).physical v)
    else none
  | .setimm h v =>
    if (s.pin h).valid then some ((s.pin h).bank, (s.pin h).mask, (s.pin h).physical v) else none
  | .getstate _ => none
  | .chkdir _ => none
  | .setactlow h v =>
    if s.mstep = 4 then some ((s.pin h).bank, (s.pin h).mask, s.temps.level ^^ v) else none
  | .setdeb _ _ => none
  | .beginTx _ => none
  | .commit _ => none
  | .getpend _ => none

/-! ### Invariants -/

/-- Rule R18: no bit is set in both masks, and an idle Collection's masks are zero. -/
def MasksConsistent (s : State) : Prop :=
  ∀ (c : Nat) (b : BankId),
    (s.coll c).pset.get b &&& (s.coll c).pclr.get b = 0 ∧
    ((s.coll c).recording = false → (s.coll c).pset.get b = 0 ∧ (s.coll c).pclr.get b = 0)

/-- Port `p` stands inside a COMMIT of Collection `c`, past its first micro-step. -/
def State.insideCommit (s : State) (p c : Nat) : Prop :=
  ∃ (q : Port) (f : Flight) (x : BitVec 8),
    s.ports[p]? = some q ∧ q.flight = some f ∧ f.instr = .commit x ∧ x.toNat = c ∧ 2 ≤ f.mstep

/-- Rules R19 and R48: the lock of a Collection is held by port `p` exactly while `p` stands inside a COMMIT
of it; so at most one port does. -/
def LockMatchesCommit (s : State) : Prop :=
  ∀ c p : Nat, c < s.colls.length → ((s.coll c).lock = .held p ↔ s.insideCommit p c)

/-- Rule R66: while the map has never been open, no handle is valid and no command is past its first
micro-step. -/
def LiveOnlyIfOpened (s : State) : Prop :=
  s.map = .opened ∨ s.map = .closed ∨
  ((∀ h, (s.pin h).valid = false) ∧ ∀ p ∈ s.ports, ∀ f, p.flight = some f → f.mstep ≤ 1)

/-- The last micro-step of each command's rule. -/
def lastMicroStep : Instr → Nat
  | .mapopen => 1
  | .mapclose => 1
  | .regrd _ _ => 2
  | .regwr _ _ _ => 2
  | .pinnew _ _ _ _ => 3
  | .setstate _ _ => 2
  | .setimm _ _ => 1
  | .getstate _ => 2
  | .chkdir _ => 1
  | .setactlow _ _ => 4
  | .setdeb _ _ => 3
  | .beginTx _ => 1
  | .commit _ => 10
  | .getpend _ => 1

/-- What a slot may hold under the parameters (R15): with `ic = 1` a Collection that exists, with `ic = 0`
Collection index 0. -/
def Pin.legal (cfg : Config) (p : Pin) : Prop :=
  p.valid = true → if p.ic then p.coll.toNat < cfg.ncoll else p.coll = 0

/-- A command in flight is well formed and stands at a micro-step that its rule has. -/
def Flight.legal (cfg : Config) (f : Flight) : Prop :=
  f.instr.wellFormed cfg = true ∧ 1 ≤ f.mstep ∧ f.mstep ≤ lastMicroStep f.instr

/-- Where a port stands in its command list (R20): its index never passes the end, and the command in flight is
the one that the command list has at the index. -/
def Port.legal (cfg : Config) (p : Port) : Prop :=
  p.idx ≤ p.prog.length ∧
  ∀ f, p.flight = some f → ∃ c, p.prog[p.idx]? = some c ∧ decode cfg c = .ok f.instr

/-- The shape of the state under its parameters (R7, R13): as many slots, Collections and ports as the
parameters say, legal parameters, legal slots, legal commands in flight and legal positions. -/
structure WellShaped (s : State) : Prop where
  legal_cfg : s.cfg.legal
  slots : s.pins.length = s.cfg.nh
  collections : s.colls.length = s.cfg.ncoll
  requesters : s.ports.length = s.cfg.nreq
  pins_legal : ∀ h, (s.pin h).legal s.cfg
  flights_legal : ∀ p ∈ s.ports, ∀ f, p.flight = some f → f.legal s.cfg
  ports_legal : ∀ p ∈ s.ports, p.legal s.cfg

end Sys2Proof.Machine
end

