-- ==== Sys2Proof/Certificates/Slice0/Obligations.lean ====
section
/-! DEFINITION. The statements for the provers, from the numbered rules of spec/. In them `s.respond st v`,
`s.raise st`, `s.enter i n t` and `s.hold i` are the model's words for a response delivered, an error
delivered, a command left in flight at micro-step `n`, and a command left waiting: what each does to a state,
and that it does nothing else, is stated once in `PortWordsMeanWhatTheySay`. -/

open Sys2Proof Sys2Proof.Machine

/-! ### Encoding (30_encoding.md) -/

/-- Rules R54, R55 and R57: the command of a well-formed instruction decodes to that instruction, with every
operand at every value that the encoding admits and under every parameter. -/
def Obligations.DecodeOfEncodeIsTheInstruction : Prop :=
  ∀ (cfg : Config) (i : Instr), i.wellFormed cfg = true → decode cfg (encode i) = .ok i

/-- Rules R53, R59 and R63: a command that decodes has the command word of its instruction and no other, the
instruction is well formed, and only REGWR depends on `wdata`. -/
def Obligations.EncodeOfDecodeIsTheCommandWord : Prop :=
  ∀ (cfg : Config) (c : Command) (i : Instr), decode cfg c = .ok i →
    encodeWord i = c.cmd ∧ i.wellFormed cfg = true ∧
    (∀ b r w, i = .regwr b r w → w = c.wdata) ∧
    ((∀ b r w, i ≠ .regwr b r w) → ∀ w : Word, decode cfg ⟨c.cmd, w⟩ = .ok i)

/-- Rule R55: a word that decodes matches the row of its instruction; a word that matches a row decodes to an
instruction of that row, but for the two reserved operand values of rule R59; and no word matches two rows. -/
def Obligations.DecodeFollowsTheOpcodeMap : Prop :=
  (∀ (c : Command) (i : Instr), decodeShape c = .ok i →
    c.cmd &&& (opcodeRow i).mask = (opcodeRow i).value) ∧
  (∀ (c : Command) (i : Instr), c.cmd &&& (opcodeRow i).mask = (opcodeRow i).value →
    (∃ j, decodeShape c = .ok j ∧ opcodeRow j = opcodeRow i) ∨
    (c.cmd.extractLsb' 0 3 = 7 ∧ decodeShape c = .error .reservedRegister) ∨
    (c.cmd.getLsbD 15 = false ∧ c.cmd.extractLsb' 8 7 ≠ 0 ∧
      decodeShape c = .error .collectionWithoutIc)) ∧
  (∀ (w : Word) (i j : Instr), w &&& (opcodeRow i).mask = (opcodeRow i).value →
    w &&& (opcodeRow j).mask = (opcodeRow j).value → opcodeRow i = opcodeRow j)

/-- Rules R59 and R111: a command is illegal exactly in the six listed cases, and a port that presents it when its
turn comes is answered with IllegalCommand while nothing else changes. -/
def Obligations.IllegalCommandsAreTheSixCases : Prop :=
  (∀ (cfg : Config) (c : Command),
    (∃ e, decode cfg c = .error e) ↔
      (c.cmd.extractLsb' 24 8 ∉ ([0x01, 0x02, 0x03, 0x04, 0x10, 0x11, 0x12, 0x13, 0x14, 0x15, 0x16, 0x20,
        0x21, 0x22] : List (BitVec 8))) ∨
      (c.cmd.extractLsb' 24 8 ∈ ([0x01, 0x02] : List (BitVec 8)) ∧ ∃ k, k < 24 ∧ c.cmd.getLsbD k = true) ∨
      (c.cmd.extractLsb' 24 8 ∈ ([0x03, 0x04] : List (BitVec 8)) ∧
        ∃ k, (3 ≤ k ∧ k < 16 ∨ 18 ≤ k ∧ k < 24) ∧ c.cmd.getLsbD k = true) ∨
      (c.cmd.extractLsb' 24 8 ∈ ([0x11, 0x12, 0x15, 0x16] : List (BitVec 8)) ∧
        ∃ k, 1 ≤ k ∧ k < 16 ∧ c.cmd.getLsbD k = true) ∨
      (c.cmd.extractLsb' 24 8 ∈ ([0x13, 0x14, 0x20, 0x21, 0x22] : List (BitVec 8)) ∧
        ∃ k, k < 16 ∧ c.cmd.getLsbD k = true) ∨
      (c.cmd.extractLsb' 24 8 ∈ ([0x03, 0x04] : List (BitVec 8)) ∧ c.cmd.extractLsb' 0 3 = 7) ∨
      (c.cmd.extractLsb' 24 8 = 0x10 ∧ c.cmd.getLsbD 15 = false ∧ c.cmd.extractLsb' 8 7 ≠ 0) ∨
      (c.cmd.extractLsb' 24 8 ∈ ([0x10, 0x11, 0x12, 0x13, 0x14, 0x15, 0x16, 0x22] : List (BitVec 8)) ∧
        cfg.nh ≤ (c.cmd.extractLsb' 16 8).toNat) ∨
      (c.cmd.extractLsb' 24 8 ∈ ([0x20, 0x21] : List (BitVec 8)) ∧
        cfg.ncoll ≤ (c.cmd.extractLsb' 16 8).toNat) ∨
      (c.cmd.extractLsb' 24 8 = 0x10 ∧ c.cmd.getLsbD 15 = true ∧
        cfg.ncoll ≤ (c.cmd.extractLsb' 8 7).toNat)) ∧
  (∀ (s : State) (p : Port) (c : Command) (e : DecodeError),
    s.ports[s.turn.port]? = some p → p.flight = none → p.prog[p.idx]? = some c →
    decode s.cfg c = .error e →
    runPort s = .next
      { s with ports := s.ports.set s.turn.port ⟨p.prog, p.idx + 1, none, ⟨.illegalCommand, 0⟩⟩ })

/-- The words of the encoding vectors V1 to V18, one for each command: sanity. -/
def Obligations.VectorWordsDecode : Prop :=
  decode Config.standard ⟨0x01000000, 0⟩ = .ok .mapopen ∧
  decode Config.standard ⟨0x02000000, 0⟩ = .ok .mapclose ∧
  decode Config.standard ⟨0x03030006, 0⟩ = .ok (.regrd 3 .oe) ∧
  decode Config.standard ⟨0x04020005, 0x000000FF⟩ = .ok (.regwr 2 .debTime 0x000000FF) ∧
  decode Config.standard ⟨0x100F817F, 0⟩ = .ok (.pinnew 15 true 1 127) ∧
  decode Config.standard ⟨0x11010001, 0xDEADBEEF⟩ = .ok (.setstate 1 true) ∧
  decode Config.standard ⟨0x12010000, 0⟩ = .ok (.setimm 1 false) ∧
  decode Config.standard ⟨0x13020000, 0⟩ = .ok (.getstate 2) ∧
  decode Config.standard ⟨0x14050000, 0⟩ = .ok (.chkdir 5) ∧
  decode Config.standard ⟨0x15000001, 0⟩ = .ok (.setactlow 0 true) ∧
  decode Config.standard ⟨0x16050000, 0⟩ = .ok (.setdeb 5 false) ∧
  decode Config.standard ⟨0x20010000, 0⟩ = .ok (.beginTx 1) ∧
  decode Config.standard ⟨0x21010000, 0⟩ = .ok (.commit 1) ∧
  decode Config.standard ⟨0x22030000, 0⟩ = .ok (.getpend 3)

/-! ### The step, responses and the parts of the state -/

/-- Rules R20, R29 and R45: a step takes a turn, and runs the instruction that the port of the turn has in
flight, or presents; or it makes a move of the host, which changes one register of one bank. The model's choices
in it: the order of steps is a queue of turns in the state (log 2); with none queued the ports go in rotation,
with the draws last made (log 3); and a port with nothing to do, or that does not exist, takes its turn with no
effect (log 35). -/
def Obligations.StepRunsTheDecodedInstruction : Prop :=
  (∀ s : State, s.turns = [] →
    s.nextTurn = some ⟨(s.turn.port + 1) % s.ports.length, s.turn.busError, s.turn.exportOk⟩ ∧
    ∀ t, s.taking t = { s with turn := t }) ∧
  (∀ (s : State) (t : PortTurn) (ts : List Turn), s.turns = .port t :: ts →
    s.nextTurn = some t ∧ s.taking t = { s with turn := t, turns := ts }) ∧
  (∀ (s : State) (t : PortTurn), s.nextTurn = some t → step s = runPort (s.taking t)) ∧
  (∀ (s : State) (t : PortTurn) (p : Port) (c : Command) (i : Instr),
    s.nextTurn = some t → s.ports[t.port]? = some p → p.flight = none → p.prog[p.idx]? = some c →
    decode s.cfg c = .ok i → step s = exec i (s.taking t)) ∧
  (∀ (s : State) (t : PortTurn) (p : Port) (f : Flight),
    s.nextTurn = some t → s.ports[t.port]? = some p → p.flight = some f →
    step s = exec f.instr (s.taking t)) ∧
  (∀ (s : State) (t : PortTurn) (p : Port),
    s.nextTurn = some t → s.ports[t.port]? = some p → p.flight = none → p.prog.length ≤ p.idx →
    step s = .next (s.taking t)) ∧
  (∀ (s : State) (t : PortTurn),
    s.nextTurn = some t → s.ports.length ≤ t.port → step s = .next (s.taking t)) ∧
  (∀ (s : State) (m : HostMove) (ts : List Turn),
    s.turns = .host m :: ts → s.nextTurn = none ∧ step s = .next ({ s with turns := ts }.hostMove m)) ∧
  (∀ (s : State) (b : BankId) (w : Word),
    s.hostMove (.drivePads b w) = s.setBank b { s.bank b with padIn := w } ∧
    s.hostMove (.setDirections b w) = s.setBank b { s.bank b with oe := w } ∧
    s.hostMove (.startClock b) = s.setBank b { s.bank b with clkEn := true })

/-- Rules R20, R25 and R58: what a response, an error, a position and a wait do to the port whose turn it is;
that the other ports and every other part of the state are as they were; and the status codes of rule R106. The
two clauses on a wait (R112, R113) are the model's choice: a micro-step that is not enabled is a next state (log 4),
and a wait at M1 is recorded in flight with no temporaries (log 23). -/
def Obligations.PortWordsMeanWhatTheySay : Prop :=
  (∀ (s : State) (p : Port), s.ports[s.turn.port]? = some p →
    (∀ st v, s.respond st v =
      { s with ports := s.ports.set s.turn.port ⟨p.prog, p.idx + 1, none, ⟨st, v⟩⟩ }) ∧
    (∀ st, s.raise st =
      { s with ports := s.ports.set s.turn.port ⟨p.prog, p.idx + 1, none, ⟨st, 0⟩⟩ }) ∧
    (∀ i n t, s.enter i n t =
      { s with ports := s.ports.set s.turn.port ⟨p.prog, p.idx, some ⟨i, n, t⟩, p.rsp⟩ }) ∧
    (∀ i, p.flight = none → s.hold i =
      { s with ports := s.ports.set s.turn.port ⟨p.prog, p.idx, some ⟨i, 1, Temps.none⟩, p.rsp⟩ }) ∧
    (∀ f, p.flight = some f → s.hold f.instr = s)) ∧
  Status.ok.code = 0 ∧ Status.hardwareIncompatible.code = 1 ∧ Status.resourceUnavailable.code = 2 ∧
  Status.invalidOperation.code = 3 ∧ Status.transientIO.code = 4 ∧ Status.illegalCommand.code = 5

/-- Rule R13: a slot, a Collection and a bank read back what was written to them, and writing one leaves the
others of its kind. -/
def Obligations.PartsReadBackWhatWasWritten : Prop :=
  (∀ (s : State) (h k : BitVec 8) (p : Pin), h.toNat < s.pins.length →
    (s.setPin h p).pin h = p ∧ (k ≠ h → (s.setPin h p).pin k = s.pin k)) ∧
  (∀ (s : State) (c d : Nat) (x : Collection), c < s.colls.length →
    (s.setColl c x).coll c = x ∧ (d ≠ c → (s.setColl c x).coll d = s.coll d)) ∧
  (∀ (s : State) (b d : BankId) (x : Bank),
    (s.setBank b x).bank b = x ∧ (d ≠ b → (s.setBank b x).bank d = s.bank d))

/-- Rules R20, R105 and R142: a micro-step that answers a next state either ends its command (the index advances
by exactly 1 and nothing is in flight) or leaves it in flight with the index and the last response as they were.
So over any run a port's list of responses has one response for each command that it finished, the last of them
is the one it holds, and a port that has finished has one for each command of its list. -/
def Obligations.MicroStepEndsOrStaysInFlight : Prop :=
  (∀ (i : Instr) (s t : State), s.turn.port < s.ports.length → exec i s = .next t →
    t.port.prog = s.port.prog ∧
    ((t.port.idx = s.port.idx + 1 ∧ t.port.flight = none) ∨
     (t.port.idx = s.port.idx ∧ t.port.rsp = s.port.rsp ∧ ∃ f, t.port.flight = some f ∧ f.instr = i))) ∧
  (∀ (n : Nat) (s t : State) (p : Nat) (a : Port),
    Host.Core.run Sys2Proof.core n s = .next t → s.ports[p]? = some a →
    ∃ b : Port, t.ports[p]? = some b ∧ b.prog = a.prog ∧ b.idx = a.idx + (responses p n s).length ∧
      (responses p n s = [] → b.rsp = a.rsp) ∧
      (∀ r, (responses p n s).getLast? = some r → b.rsp = r) ∧
      (a.idx = 0 → b.finished = true → (responses p n s).length = a.prog.length))

/-! ### Operands (41_direct_pin.md) -/

/-- Rule R73: the bank, the bit and the mask of a pin number; the pair is injective; and the four values that
the rule gives. -/
def Obligations.PinAddressIsInjective : Prop :=
  (∀ n : BitVec 7, (pinBank n).val = n.toNat / 32 ∧ pinBit n = n.toNat % 32 ∧
    ∀ k, (pinMask n).getLsbD k = decide (k = n.toNat % 32)) ∧
  (∀ n m : BitVec 7, pinBank n = pinBank m → pinBit n = pinBit m → n = m) ∧
  (pinBank 0 = 0 ∧ pinBit 0 = 0 ∧ pinMask 0 = 0x00000001) ∧
  (pinBank 31 = 0 ∧ pinBit 31 = 31 ∧ pinMask 31 = 0x80000000) ∧
  (pinBank 32 = 1 ∧ pinBit 32 = 0 ∧ pinMask 32 = 0x00000001) ∧
  (pinBank 127 = 3 ∧ pinBit 127 = 31 ∧ pinMask 127 = 0x80000000)

/-- Rule R76: with `al = 0` logical true is physical high, with `al = 1` it is physical low, and reading
undoes writing. -/
def Obligations.PolarityIsExclusiveOr : Prop :=
  ∀ (p : Pin) (v : Bool),
    p.physical v = (v ^^ p.al) ∧ p.logical v = (v ^^ p.al) ∧ p.logical (p.physical v) = v ∧
    (p.al = false → p.physical true = true) ∧ (p.al = true → p.physical true = false)

/-! ### Register Bank Map commands (40_map.md) -/

/-- Rule R67: MAPOPEN in each state of the map. -/
def Obligations.MapopenAnswersByMapState : Prop :=
  ∀ s : State,
    (s.map = .unopened → EveryBankIdentified s.cfg →
      exec .mapopen s = .next ({ s with map := .opened }.respond .ok 0)) ∧
    (s.map = .unopened → ¬EveryBankIdentified s.cfg →
      exec .mapopen s = .next ({ s with map := .failed }.raise .hardwareIncompatible)) ∧
    (s.map = .opened → exec .mapopen s = .next (s.respond .ok 0)) ∧
    (s.map = .failed → exec .mapopen s = .next (s.raise .hardwareIncompatible)) ∧
    (s.map = .closed → exec .mapopen s = .next (s.raise .invalidOperation))

/-- Rule R68: MAPCLOSE answers OK in every state and changes only OPEN, to CLOSED. -/
def Obligations.MapcloseAlwaysAnswersOk : Prop :=
  ∀ s : State,
    (s.map = .opened → exec .mapclose s = .next ({ s with map := .closed }.respond .ok 0)) ∧
    (s.map ≠ .opened → exec .mapclose s = .next (s.respond .ok 0))

/-- Rules R69, R33 and R37: REGRD of each register, in two micro-steps; the word of SET and CLEAR is the free
word of the present draw, of which nothing is known. -/
def Obligations.RegrdAnswersTheRegister : Prop :=
  ∀ (s : State) (b : BankId) (r : Reg), s.Ready → s.Accessible b →
    ∃ u, exec (.regrd b r) s = .next u ∧
      (r = .dataIn → exec (.regrd b r) u = .next (s.respond .ok (s.bank b).padIn)) ∧
      (r = .dataOut → exec (.regrd b r) u = .next (s.respond .ok (s.bank b).dataOut)) ∧
      (r = .debEn → exec (.regrd b r) u = .next (s.respond .ok (s.bank b).debEn)) ∧
      (r = .debTime → exec (.regrd b r) u = .next (s.respond .ok (s.bank b).debTime)) ∧
      (r = .oe → exec (.regrd b r) u = .next (s.respond .ok (s.bank b).oe)) ∧
      (r = .set ∨ r = .clear → exec (.regrd b r) u =
        .next ({ s with draws := s.draws + 1 }.respond .ok (Config.freeWord s.draws)))

/-- Rules R70, R34, R35 and R36: REGWR of each register, in two micro-steps; a write to DATAIN is refused. That a
write to DATAOUT replaces the latch is what the spec takes from general knowledge (R36, G6; log 17, PRESUMED). -/
def Obligations.RegwrWritesTheRegister : Prop :=
  ∀ (s : State) (b : BankId) (r : Reg) (w : Word), s.Ready → s.Accessible b →
    ∃ u, exec (.regwr b r w) s = .next u ∧
      (r = .dataOut → exec (.regwr b r w) u =
        .next ((s.setBank b { s.bank b with dataOut := w }).respond .ok 0)) ∧
      (r = .set → exec (.regwr b r w) u =
        .next ((s.setBank b { s.bank b with dataOut := (s.bank b).dataOut ||| w }).respond .ok 0)) ∧
      (r = .clear → exec (.regwr b r w) u =
        .next ((s.setBank b { s.bank b with dataOut := (s.bank b).dataOut &&& ~~~w }).respond .ok 0)) ∧
      (r = .debEn → exec (.regwr b r w) u =
        .next ((s.setBank b { s.bank b with debEn := w }).respond .ok 0)) ∧
      (r = .debTime → exec (.regwr b r w) u =
        .next ((s.setBank b { s.bank b with debTime := w }).respond .ok 0)) ∧
      (r = .oe → exec (.regwr b r w) u =
        .next ((s.setBank b { s.bank b with oe := w }).respond .ok 0)) ∧
      (r = .dataIn → exec (.regwr b r w) u = .refused .dataInWrite)

/-- Rules R65 and R66: the first micro-step of REGRD, REGWR, PINNEW and COMMIT opens an unopened map, and
answers HardwareIncompatible when the identification fails or has failed; with the map closed it is
undefined. For COMMIT the lock must be free; it takes the lock only when the map is open (R88). -/
def Obligations.FirstUseOpensTheMap : Prop :=
  (∀ (s : State) (i : Instr), s.Ready →
    ((∃ b r, i = .regrd b r) ∨ (∃ b r w, i = .regwr b r w) ∨
      (∃ h ic c n, i = .pinnew h ic c n ∧ n.toNat ≤ 127)) →
    (s.map = .unopened → EveryBankIdentified s.cfg →
      exec i s = .next ({ s with map := .opened }.enter i 2 Temps.none)) ∧
    (s.map = .opened → exec i s = .next (s.enter i 2 Temps.none)) ∧
    (s.map = .unopened → ¬EveryBankIdentified s.cfg →
      exec i s = .next ({ s with map := .failed }.raise .hardwareIncompatible)) ∧
    (s.map = .failed → exec i s = .next (s.raise .hardwareIncompatible)) ∧
    (s.map = .closed → exec i s = .fault .useAfterClose)) ∧
  (∀ (s : State) (c : BitVec 8), s.Ready → (s.coll c.toNat).lock = .free →
    (s.map = .unopened → EveryBankIdentified s.cfg →
      exec (.commit c) s = .next ((State.setColl { s with map := .opened } c.toNat
        { s.coll c.toNat with lock := .held s.turn.port }).enter (.commit c) 2 Temps.none)) ∧
    (s.map = .unopened → ¬EveryBankIdentified s.cfg →
      exec (.commit c) s = .next ({ s with map := .failed }.raise .hardwareIncompatible)) ∧
    (s.map = .failed → exec (.commit c) s = .next (s.raise .hardwareIncompatible)) ∧
    (s.map = .closed → exec (.commit c) s = .fault .useAfterClose))

/-! ### Direct Pin and capability commands (41_direct_pin.md, 43_capability.md) -/

/-- Rule R75: PINNEW in three micro-steps: a pin number above 127 is refused first; an export that the host
answers with ok starts the bank's clock and the slot is bound; one that it fails binds nothing. -/
def Obligations.PinnewBindsAfterExport : Prop :=
  ∀ (s : State) (h : BitVec 8) (ic : Bool) (coll : BitVec 7) (num : BitVec 8) (b : BankId), s.Ready →
    (127 < num.toNat → exec (.pinnew h ic coll num) s = .next (s.raise .invalidOperation)) ∧
    (num.toNat ≤ 127 → b.val = num.toNat / 32 → s.map = .opened →
      ∃ u, exec (.pinnew h ic coll num) s = .next u ∧
        (s.turn.exportOk = false →
          exec (.pinnew h ic coll num) u = .next (s.raise .resourceUnavailable)) ∧
        (s.turn.exportOk = true →
          ∃ x, exec (.pinnew h ic coll num) u = .next x ∧ (x.bank b).clkEn = true ∧
            exec (.pinnew h ic coll num) x = .next
              (((s.setBank b { s.bank b with clkEn := true }).setPin h
                ⟨true, num.setWidth 7, false, ic, if ic then coll else 0⟩).respond .ok 0)))

/-- Rules R77 and R78: SETSTATE on a free pin drives its latch bit to `v xor al` in one micro-step and leaves
the other bits; the direction is not asked for. -/
def Obligations.SetstateDrivesAFreePin : Prop :=
  ∀ (s : State) (h : BitVec 8) (v : Bool), s.Ready → (s.pin h).valid = true → (s.pin h).ic = false →
    s.Accessible (s.pin h).bank →
    exec (.setstate h v) s =
      .next ((s.drive (s.pin h).bank (s.pin h).mask (v ^^ (s.pin h).al)).respond .ok 0)

/-- Rule R87: SETSTATE on a pin of a Collection: recording, the pin's bit goes into the mask of its physical
level and out of the sibling mask, with no bank access; idle, the latch is driven in a second micro-step. -/
def Obligations.SetstateBuffersOrDrives : Prop :=
  ∀ (s : State) (h : BitVec 8) (v : Bool) (p : Pin) (x : Collection),
    s.Ready → s.pin h = p → p.valid = true → p.ic = true → s.coll p.coll.toNat = x → x.lock = .free →
    (x.recording = true → (v ^^ p.al) = true → exec (.setstate h v) s =
      .next ((s.setColl p.coll.toNat
        { x with pset := x.pset.set p.bank (x.pset.get p.bank ||| p.mask),
                 pclr := x.pclr.set p.bank (x.pclr.get p.bank &&& ~~~p.mask) }).respond .ok 0)) ∧
    (x.recording = true → (v ^^ p.al) = false → exec (.setstate h v) s =
      .next ((s.setColl p.coll.toNat
        { x with pclr := x.pclr.set p.bank (x.pclr.get p.bank ||| p.mask),
                 pset := x.pset.set p.bank (x.pset.get p.bank &&& ~~~p.mask) }).respond .ok 0)) ∧
    (x.recording = false → s.Accessible p.bank → ∃ u, exec (.setstate h v) s = .next u ∧
      exec (.setstate h v) u = .next ((s.drive p.bank p.mask (v ^^ p.al)).respond .ok 0))

/-- Rules R98, R95 and R52: SETIMM drives the latch bit to `v xor al`, whether the pin is free or of a
recording or locked Collection; if the pin is OUT its pad shows that level and every other pad is as it was. -/
def Obligations.SetimmDrivesAtOnce : Prop :=
  ∀ (s : State) (h : BitVec 8) (v : Bool), (s.pin h).valid = true → s.Accessible (s.pin h).bank →
    ∃ t, exec (.setimm h v) s = .next t ∧
      t = (s.drive (s.pin h).bank (s.pin h).mask (v ^^ (s.pin h).al)).respond .ok 0 ∧
      (s.isOut (s.pin h) → t.padLevel (s.pin h).num = some (v ^^ (s.pin h).al)) ∧
      (∀ n : BitVec 7, n ≠ (s.pin h).num → t.padLevel n = s.padLevel n)

/-- Rule R79: GETSTATE in two micro-steps answers the latch bit of an OUT pin, or the data-in bit of an IN
pin, corrected by `al`, and changes nothing else. -/
def Obligations.GetstateAnswersTheLogicalLevel : Prop :=
  ∀ (s : State) (h : BitVec 8), s.Ready → (s.pin h).valid = true → s.Accessible (s.pin h).bank →
    ∃ u, exec (.getstate h) s = .next u ∧
      exec (.getstate h) u =
        .next (s.respond .ok (if (s.levelOf (s.pin h) ^^ (s.pin h).al) = true then 1 else 0))

/-- Rule R80: CHKDIR answers 1 for OUT and 0 for IN, whatever `al` is. -/
def Obligations.ChkdirAnswersTheDirection : Prop :=
  ∀ (s : State) (h : BitVec 8), (s.pin h).valid = true → s.Accessible (s.pin h).bank →
    (s.isOut (s.pin h) → exec (.chkdir h) s = .next (s.respond .ok 1)) ∧
    (¬s.isOut (s.pin h) → exec (.chkdir h) s = .next (s.respond .ok 0))

/-- Rule R99: SETACTLOW with the flag it has rewrites nothing, in three micro-steps; with the other flag it
stores the flag and, in a fourth, inverts the physical level it read. -/
def Obligations.SetactlowStoresFlagAndInvertsLevel : Prop :=
  ∀ (s : State) (h : BitVec 8) (v : Bool), s.Ready → (s.pin h).valid = true →
    s.Accessible (s.pin h).bank →
    ∃ u x, exec (.setactlow h v) s = .next u ∧ exec (.setactlow h v) u = .next x ∧
      ((s.pin h).al = v → exec (.setactlow h v) x = .next (s.respond .ok 0)) ∧
      ((s.pin h).al ≠ v → ∃ y, exec (.setactlow h v) x = .next y ∧ exec (.setactlow h v) y =
        .next (((s.setPin h { s.pin h with al := v }).drive (s.pin h).bank (s.pin h).mask
          (!s.levelOf (s.pin h))).respond .ok 0))

/-- Rule R81: SETDEB on an IN pin changes that pin's bit of the debounce-enable word and no other bit, in
three micro-steps; on an OUT pin it answers InvalidOperation and writes nothing. -/
def Obligations.SetdebWritesOneBitOfAnInPin : Prop :=
  ∀ (s : State) (h : BitVec 8) (v : Bool), s.Ready → (s.pin h).valid = true →
    s.Accessible (s.pin h).bank →
    (s.isOut (s.pin h) → exec (.setdeb h v) s = .next (s.raise .invalidOperation)) ∧
    (¬s.isOut (s.pin h) → ∃ u x, exec (.setdeb h v) s = .next u ∧ exec (.setdeb h v) u = .next x ∧
      exec (.setdeb h v) x = .next
        ((s.setBank (s.pin h).bank
          { s.bank (s.pin h).bank with
            debEn := driven (s.bank (s.pin h).bank).debEn (s.pin h).mask v }).respond .ok 0))

/-! ### Batch commands (42_batch.md) -/

/-- Rule R86: BEGIN sets the recording flag, keeps the masks, and needs neither the map nor a clock; it is the
same whether the Collection records already or not. -/
def Obligations.BeginStartsRecording : Prop :=
  ∀ (s : State) (c : BitVec 8), (s.coll c.toNat).lock = .free →
    exec (.beginTx c) s =
      .next ((s.setColl c.toNat { s.coll c.toNat with recording := true }).respond .ok 0)

/-- Rule R88, micro-step by micro-step: M1 takes the lock, each of the following makes the next write of
`COMMIT_ORDER`, and the one after the last write zeroes the masks, ends recording, and frees the lock. -/
def Obligations.CommitMicroSteps : Prop :=
  ∀ (s : State) (c : BitVec 8), s.turn.port < s.ports.length →
    (s.mstep = 1 → (s.coll c.toNat).lock = .free → s.map = .opened →
      exec (.commit c) s = .next ((s.setColl c.toNat
        { s.coll c.toNat with lock := .held s.turn.port }).enter (.commit c) 2 Temps.none)) ∧
    (∀ k b, s.mstep = k + 2 → s.cfg.commitOrder[k]? = some (b, .set) → s.Accessible b →
      exec (.commit c) s = .next ((s.drive b ((s.coll c.toNat).pset.get b) true).enter (.commit c) (k + 3)
        Temps.none)) ∧
    (∀ k b, s.mstep = k + 2 → s.cfg.commitOrder[k]? = some (b, .clear) → s.Accessible b →
      exec (.commit c) s = .next ((s.drive b ((s.coll c.toNat).pclr.get b) false).enter (.commit c) (k + 3)
        Temps.none)) ∧
    (s.mstep = s.cfg.commitOrder.length + 2 →
      exec (.commit c) s = .next ((s.setColl c.toNat
        ⟨false, .free, PerBank.all 0, PerBank.all 0⟩).respond .ok 0))

/-- Rules R88, R91 and R96: a whole COMMIT, in ten micro-steps with nothing in between, for EVERY order of the
eight writes, and whether the Collection records or is idle. -/
def Obligations.CommitFlushesTheMasks : Prop :=
  ∀ (s : State) (c : BitVec 8), s.Ready → s.cfg.commitOrderLegal → MasksConsistent s →
    (s.coll c.toNat).lock = .free → (∀ b, s.Accessible b) →
    ∃ banks : PerBank Bank,
      runInstr (.commit c) 10 s = .next (({ s with banks := banks }.setColl c.toNat
        ⟨false, .free, PerBank.all 0, PerBank.all 0⟩).respond .ok 0) ∧
      ∀ b, banks.get b =
        { s.bank b with
          dataOut := ((s.bank b).dataOut ||| (s.coll c.toNat).pset.get b) &&&
            ~~~((s.coll c.toNat).pclr.get b) }

/-- Rule R89: GETPEND answers whether the pin's bit is pending and its logical value, with no bank access and
in every state of the map; for a free pin it answers InvalidOperation. -/
def Obligations.GetpendAnswersThePendingState : Prop :=
  ∀ (s : State) (h : BitVec 8) (p : Pin) (x : Collection), s.pin h = p → p.valid = true →
    s.coll p.coll.toNat = x →
    (p.ic = false → exec (.getpend h) s = .next (s.raise .invalidOperation)) ∧
    (p.ic = true → x.lock = .free →
      (((x.pset.get p.bank).getLsbD p.bit || (x.pclr.get p.bank).getLsbD p.bit) = false →
        exec (.getpend h) s = .next (s.respond .ok 0)) ∧
      (((x.pset.get p.bank).getLsbD p.bit || (x.pclr.get p.bank).getLsbD p.bit) = true →
        exec (.getpend h) s = .next (s.respond .ok
          (if ((x.pset.get p.bank).getLsbD p.bit ^^ p.al) = true then 3 else 2))))

/-- Rules R85, R88, R90 and R91 (e): two different pins of one idle Collection: after BEGIN and two buffered
SETSTATEs no bank has changed, and after the COMMIT a GETSTATE of each, both being OUT, answers what was set. -/
def Obligations.TransactionBuffersUntilCommit : Prop :=
  ∀ (s : State) (c h k : BitVec 8) (v w : Bool), s.Ready → s.cfg.commitOrderLegal → MasksConsistent s →
    c.toNat < s.colls.length → (s.coll c.toNat).lock = .free → (∀ b, s.Accessible b) →
    (s.pin h).valid = true → (s.pin h).ic = true → (s.pin h).coll.toNat = c.toNat →
    (s.pin k).valid = true → (s.pin k).ic = true → (s.pin k).coll.toNat = c.toNat →
    (s.pin h).num ≠ (s.pin k).num → s.isOut (s.pin h) → s.isOut (s.pin k) →
    ∃ s1 s2 s3 s4 s5 s6,
      exec (.beginTx c) s = .next s1 ∧ exec (.setstate h v) s1 = .next s2 ∧
      exec (.setstate k w) s2 = .next s3 ∧ s3.banks = s.banks ∧
      runInstr (.commit c) 10 s3 = .next s4 ∧
      runInstr (.getstate h) 2 s4 = .next s5 ∧ s5.port.rsp = ⟨.ok, if v then 1 else 0⟩ ∧
      runInstr (.getstate k) 2 s5 = .next s6 ∧ s6.port.rsp = ⟨.ok, if w then 1 else 0⟩

/-! ### Properties of the pin commands -/

/-- Rule R83: what SETSTATE, or SETIMM, sets on an OUT pin is what GETSTATE then answers, under both
polarities: for a free pin, for a pin of an idle Collection, and by SETIMM for any pin. -/
def Obligations.SetThenGetRoundTrip : Prop :=
  ∀ (s : State) (h : BitVec 8) (v : Bool), s.Ready → (s.pin h).valid = true →
    s.Accessible (s.pin h).bank → s.isOut (s.pin h) →
    ((s.pin h).ic = false → ∃ t u, exec (.setstate h v) s = .next t ∧
      runInstr (.getstate h) 2 t = .next u ∧ u.port.rsp = ⟨.ok, if v then 1 else 0⟩) ∧
    ((s.pin h).ic = true → (s.coll (s.pin h).coll.toNat).lock = .free →
      (s.coll (s.pin h).coll.toNat).recording = false → ∃ t u, runInstr (.setstate h v) 2 s = .next t ∧
      runInstr (.getstate h) 2 t = .next u ∧ u.port.rsp = ⟨.ok, if v then 1 else 0⟩) ∧
    (∃ t u, exec (.setimm h v) s = .next t ∧
      runInstr (.getstate h) 2 t = .next u ∧ u.port.rsp = ⟨.ok, if v then 1 else 0⟩)

/-- Rule R100: on an OUT pin GETSTATE answers after SETACTLOW what it answered before; on an IN pin whose flag
changes it answers the inverse. -/
def Obligations.ActiveLowInvariance : Prop :=
  ∀ (s : State) (h : BitVec 8) (v : Bool), s.Ready → h.toNat < s.pins.length →
    (s.pin h).valid = true → s.Accessible (s.pin h).bank →
    ∃ t before after, runInstr (.setactlow h v) (if (s.pin h).al = v then 3 else 4) s = .next t ∧
      runInstr (.getstate h) 2 s = .next before ∧ runInstr (.getstate h) 2 t = .next after ∧
      before.port.rsp.status = .ok ∧ after.port.rsp.status = .ok ∧
      (s.isOut (s.pin h) → after.port.rsp.rdata = before.port.rsp.rdata) ∧
      (¬s.isOut (s.pin h) → (s.pin h).al ≠ v → after.port.rsp.rdata = before.port.rsp.rdata ^^^ 1)

/-- Rule R84: two `WritePhys` micro-steps of two ports, of whichever commands make them (SETIMM, SETSTATE on a free
pin, the idle path's M2 of SETSTATE, M4 of SETACTLOW): on different pins they commute; on one pin the later one
stays; and both are answered OK. -/
def Obligations.SingleBitWritesCommute : Prop :=
  ∀ (s : State) (p q : PortTurn) (i j : Instr) (n k : BitVec 7) (v w : Bool),
    p.port < s.ports.length → q.port < s.ports.length → p.port ≠ q.port →
    p.busError = false → q.busError = false → s.map = .opened →
    (s.bank (pinBank n)).clkEn = true → (s.bank (pinBank k)).clkEn = true →
    physWrite i { s with turn := p } = some (pinBank n, pinMask n, v) →
    physWrite j { s with turn := q } = some (pinBank k, pinMask k, w) →
    ∃ a ab b ba,
      exec i { s with turn := p } = .next a ∧ exec j { a with turn := q } = .next ab ∧
      exec j { s with turn := q } = .next b ∧ exec i { b with turn := p } = .next ba ∧
      a.port.rsp = ⟨.ok, 0⟩ ∧ ab.port.rsp = ⟨.ok, 0⟩ ∧ b.port.rsp = ⟨.ok, 0⟩ ∧ ba.port.rsp = ⟨.ok, 0⟩ ∧
      (n ≠ k → ab.banks = ba.banks) ∧
      (n = k → (ab.bank (pinBank n)).dataOut.getLsbD (pinBit n) = w ∧
        (ba.bank (pinBank n)).dataOut.getLsbD (pinBit n) = v)

/-- Rule R136: if the host changes the pin's direction between the two reads of GETSTATE, the level comes from
the register that matched the old direction. -/
def Obligations.GetstateUsesTheFirstDirection : Prop :=
  ∀ (s : State) (h : BitVec 8) (oe : Word), s.Ready → (s.pin h).valid = true →
    s.Accessible (s.pin h).bank →
    ∃ u, exec (.getstate h) s = .next u ∧
      exec (.getstate h) (u.hostMove (.setDirections (s.pin h).bank oe)) =
        .next ((s.hostMove (.setDirections (s.pin h).bank oe)).respond .ok
          (if (s.levelOf (s.pin h) ^^ (s.pin h).al) = true then 1 else 0))

/-- Rule R132: two SETDEBs of two ports on IN pins of one bank, interleaved as test, test, read, read, write,
write: both are answered OK, and the bank keeps the second one's bit and loses the first one's. -/
def Obligations.InterleavedSetdebLosesAnUpdate : Prop :=
  ∀ (s : State) (p q : PortTurn) (h k : BitVec 8) (v w : Bool) (x y : Port) (cx cy : Command),
    p.port ≠ q.port → s.ports[p.port]? = some x → s.ports[q.port]? = some y →
    x.flight = none → x.prog[x.idx]? = some cx → decode s.cfg cx = .ok (.setdeb h v) →
    y.flight = none → y.prog[y.idx]? = some cy → decode s.cfg cy = .ok (.setdeb k w) →
    p.busError = false → q.busError = false → s.map = .opened →
    (s.pin h).valid = true → (s.pin k).valid = true → ¬s.isOut (s.pin h) → ¬s.isOut (s.pin k) →
    (s.pin h).bank = (s.pin k).bank → (s.bank (s.pin h).bank).clkEn = true →
    s.turns = [.port p, .port q, .port p, .port q, .port p, .port q] →
    ∃ t x' y', Host.Core.run Sys2Proof.core 6 s = .next t ∧
      t.ports[p.port]? = some x' ∧ x'.idx = x.idx + 1 ∧ x'.rsp = ⟨.ok, 0⟩ ∧
      t.ports[q.port]? = some y' ∧ y'.idx = y.idx + 1 ∧ y'.rsp = ⟨.ok, 0⟩ ∧
      (t.bank (s.pin k).bank).debEn = driven (s.bank (s.pin k).bank).debEn (s.pin k).mask w

/-- Rules R62 and R71: the two commands of REGRMW, with nothing in between, leave a storage register with the
bits of `mask` as in `value` and the other bits as they were. That the registers store what is written is R34, R36
and R39 to R41, of which the case of DATAOUT is what the spec takes from general knowledge (R36, G6; log 17,
PRESUMED). -/
def Obligations.ReadModifyWriteMerges : Prop :=
  ∀ (s : State) (b : BankId) (r : Reg) (mask value : Word), s.Ready → s.Accessible b →
    r = .dataOut ∨ r = .debEn ∨ r = .debTime ∨ r = .oe →
    ∃ t u w x, runInstr (regRmwRead b r) 2 s = .next t ∧
      runInstr (regRmwWrite b r mask value t.port.rsp.rdata) 2 t = .next u ∧
      (s.bank b).stored r = some w ∧ (u.bank b).stored r = some x ∧
      ∀ k, x.getLsbD k = if mask.getLsbD k = true then value.getLsbD k else w.getLsbD k

/-! ### Errors, hang, undefined (60_exceptions.md) -/

/-- Rule R74: every H-format command begins with the handle check, before any test of the map, the clock, the
bus or the lock; and a handle that is not below `NH` does not decode. -/
def Obligations.HandleCheckComesFirst : Prop :=
  (∀ (s : State) (i : Instr) (h : BitVec 8), handleOf i = some h → s.mstep = 1 →
    (s.pin h).valid = false → exec i s = .next (s.raise .invalidOperation)) ∧
  (∀ (cfg : Config) (c : Command) (i : Instr) (h : BitVec 8), handleOf i = some h →
    decode cfg c = .ok i → h.toNat < cfg.nh)

/-- Rule R115: a micro-step faults exactly when it accesses a bank with the map not open, or comes to
`RequireMap` with the map closed. -/
def Obligations.FaultExactlyWhenUndefined : Prop :=
  ∀ (i : Instr) (s : State) (f : Fault),
    exec i s = .fault f ↔
      f = .useAfterClose ∧
        ((∃ b, nextAccess i s = some b ∧ s.map ≠ .opened) ∨ (needsMap i s ∧ s.map = .closed))

/-- Rule R112: an access to a bank whose clock is off is not made: the port stays at the micro-step, with no
response, and nothing else changes. That a step not enabled is a next state in which the command waits, and
that a wait at M1 is recorded in flight, is the model's choice (log 4, 23). -/
def Obligations.AccessWithoutClockHangs : Prop :=
  ∀ (i : Instr) (s : State) (b : BankId), nextAccess i s = some b → s.map = .opened →
    (s.bank b).clkEn = false → exec i s = .next (s.hold i)

/-- Rule R110: a bus error ends the command with TransientIO and changes nothing; a COMMIT gives up its lock
and keeps its masks and its recording flag. -/
def Obligations.BusErrorEndsTheCommand : Prop :=
  ∀ (i : Instr) (s : State) (b : BankId), nextAccess i s = some b → s.map = .opened →
    (s.bank b).clkEn = true → s.turn.busError = true →
    ((∀ c, i ≠ .commit c) → exec i s = .next (s.raise .transientIO)) ∧
    (∀ c, i = .commit c → exec i s =
      .next ((s.setColl c.toNat { s.coll c.toNat with lock := .free }).raise .transientIO))

/-- Rule R35: the one thing that a model refuses is a raw write to DATAIN. That the refusal comes at the command's
second micro-step (R70), and only when the tests of rule R34 have passed, is the model's choice (log 6). -/
def Obligations.RefusalExactlyForDataIn : Prop :=
  ∀ (i : Instr) (s : State) (r : Refusal),
    exec i s = .refused r ↔
      r = .dataInWrite ∧ ∃ b w, i = .regwr b .dataIn w ∧ s.mstep = 2 ∧ s.Accessible b

/-- Rules R48 and R113: a locked micro-step waits while the lock is held, whoever holds it and whatever the
map is. That the wait is a next state is the model's choice (log 4, 23). -/
def Obligations.LockedMicroStepsWait : Prop :=
  ∀ (s : State) (p : Nat),
    (∀ c : BitVec 8, (s.coll c.toNat).lock = .held p → exec (.beginTx c) s = .next (s.hold (.beginTx c))) ∧
    (∀ c : BitVec 8, (s.coll c.toNat).lock = .held p → s.mstep = 1 →
      exec (.commit c) s = .next (s.hold (.commit c))) ∧
    (∀ h v, (s.pin h).valid = true → (s.pin h).ic = true → s.mstep = 1 →
      (s.coll (s.pin h).coll.toNat).lock = .held p →
      exec (.setstate h v) s = .next (s.hold (.setstate h v))) ∧
    (∀ h, (s.pin h).valid = true → (s.pin h).ic = true →
      (s.coll (s.pin h).coll.toNat).lock = .held p →
      exec (.getpend h) s = .next (s.hold (.getpend h)))

/-! ### Frames: what each command leaves as it was -/

/-- GETSTATE, CHKDIR and GETPEND change nothing but the port; REGRD nothing but the port, the map on its
first use, and the model's draw counter for SET and CLEAR (R33, R79, R80, R89). -/
def Obligations.ReadingCommandsChangeOnlyThePort : Prop :=
  (∀ (s t : State) (h : BitVec 8), exec (.getstate h) s = .next t → s.onlyPort t) ∧
  (∀ (s t : State) (h : BitVec 8), exec (.chkdir h) s = .next t → s.onlyPort t) ∧
  (∀ (s t : State) (h : BitVec 8), exec (.getpend h) s = .next t → s.onlyPort t) ∧
  (∀ (s t : State) (b : BankId) (r : Reg), exec (.regrd b r) s = .next t →
    ∃ m d, State.onlyPort { s with map := m, draws := d } t ∧ (s.map ≠ .unopened → m = s.map) ∧
      (r ≠ .set → r ≠ .clear → d = s.draws))

/-- REGWR changes nothing but the port, the map on its first use, and, of the bank it names, the one stored
register it writes: every byte of the pages outside that register reads as before (R34, R70). A micro-step whose
access is not made, or does not go through, leaves every bank as it was. -/
def Obligations.RegwrChangesOnlyItsRegister : Prop :=
  ∀ (s t : State) (b : BankId) (r : Reg) (w : Word), exec (.regwr b r w) s = .next t →
    (∃ m x, State.onlyPort (State.setBank { s with map := m } b x) t ∧ (s.map ≠ .unopened → m = s.map) ∧
      x.padIn = (s.bank b).padIn ∧ x.clkEn = (s.bank b).clkEn ∧
      (r ≠ .dataOut → r ≠ .set → r ≠ .clear → x.dataOut = (s.bank b).dataOut) ∧
      (r ≠ .oe → x.oe = (s.bank b).oe) ∧ (r ≠ .debEn → x.debEn = (s.bank b).debEn) ∧
      (r ≠ .debTime → x.debTime = (s.bank b).debTime)) ∧
    (nextAccess (.regwr b r w) s = none ∨ ¬s.Accessible b → t.banks = s.banks) ∧
    (∀ a : Nat, busDecode s.cfg a ≠ some (b, r) → busDecode s.cfg a ≠ some (b, .dataOut) →
      t.busByte a = s.busByte a)

/-- SETSTATE and SETIMM change nothing but the port, the latch bits of the mask they write in the bank they
write, and, for SETSTATE on a pin of a Collection, that Collection's masks at the pin's bit (R78, R87, R98).
The bank and the mask are the pin's, or for SETSTATE's second micro-step the ones it carries. A micro-step that
makes no access (a Collection pin's M1, recording, idle or waiting), or whose access does not go through, leaves
every bank as it was. -/
def Obligations.SetCommandsChangeOnlyTheirBits : Prop :=
  (∀ (s t : State) (h : BitVec 8) (v : Bool), exec (.setimm h v) s = .next t →
    ∃ d, State.onlyPort (s.setBank (s.pin h).bank { s.bank (s.pin h).bank with dataOut := d }) t ∧
      d &&& ~~~(s.pin h).mask = (s.bank (s.pin h).bank).dataOut &&& ~~~(s.pin h).mask ∧
      (nextAccess (.setimm h v) s = none ∨ ¬s.Accessible (s.pin h).bank → t.banks = s.banks)) ∧
  (∀ (s t : State) (h : BitVec 8) (v : Bool) (b : BankId) (m : Word), exec (.setstate h v) s = .next t →
    (s.mstep = 2 → b = s.temps.bank ∧ m = s.temps.mask) →
    (s.mstep ≠ 2 → b = (s.pin h).bank ∧ m = (s.pin h).mask) →
    ∃ d x, State.onlyPort ((s.setBank b { s.bank b with dataOut := d }).setColl (s.pin h).coll.toNat x) t ∧
      d &&& ~~~m = (s.bank b).dataOut &&& ~~~m ∧
      (nextAccess (.setstate h v) s = none ∨ ¬s.Accessible b → t.banks = s.banks) ∧
      x.recording = (s.coll (s.pin h).coll.toNat).recording ∧
      x.lock = (s.coll (s.pin h).coll.toNat).lock ∧
      (∀ b', x.pset.get b' &&& ~~~(s.pin h).mask =
        (s.coll (s.pin h).coll.toNat).pset.get b' &&& ~~~(s.pin h).mask) ∧
      (∀ b', x.pclr.get b' &&& ~~~(s.pin h).mask =
        (s.coll (s.pin h).coll.toNat).pclr.get b' &&& ~~~(s.pin h).mask) ∧
      (∀ b', b' ≠ (s.pin h).bank → x.pset.get b' = (s.coll (s.pin h).coll.toNat).pset.get b' ∧
        x.pclr.get b' = (s.coll (s.pin h).coll.toNat).pclr.get b') ∧
      (s.mstep = 2 ∨ (s.pin h).ic = false ∨ (s.coll (s.pin h).coll.toNat).recording = false →
        x = s.coll (s.pin h).coll.toNat))

/-- SETACTLOW changes nothing but the port, the ActiveLow flag of its slot, and the latch bit of the pin, the
flag at its third micro-step and the latch at its fourth; no mask and no lock (R99, R94). -/
def Obligations.SetactlowChangesOnlyFlagAndLatchBit : Prop :=
  ∀ (s t : State) (h : BitVec 8) (v : Bool), exec (.setactlow h v) s = .next t →
    ∃ al d, State.onlyPort ((s.setPin h { s.pin h with al := al }).setBank (s.pin h).bank
        { s.bank (s.pin h).bank with dataOut := d }) t ∧
      d &&& ~~~(s.pin h).mask = (s.bank (s.pin h).bank).dataOut &&& ~~~(s.pin h).mask ∧
      (s.mstep ≠ 3 → al = (s.pin h).al) ∧ (s.mstep ≠ 4 → d = (s.bank (s.pin h).bank).dataOut)

/-- SETDEB changes nothing but the port and, at its third micro-step, the debounce-enable word of one bank:
the one it carries from its first micro-step (log 32), or before that the pin's. No other register changes
(R81, R82). -/
def Obligations.SetdebChangesOnlyDebounceEnable : Prop :=
  ∀ (s t : State) (h : BitVec 8) (v : Bool) (b : BankId), exec (.setdeb h v) s = .next t →
    (s.mstep = 2 ∨ s.mstep = 3 → b = s.temps.bank) →
    (s.mstep ≠ 2 → s.mstep ≠ 3 → b = (s.pin h).bank) →
    ∃ d, State.onlyPort (s.setBank b { s.bank b with debEn := d }) t ∧
      (s.mstep ≠ 3 → d = (s.bank b).debEn) ∧
      (s.mstep = 3 → s.Accessible b → d = driven s.temps.word s.temps.mask v)

/-- BEGIN changes nothing but the port and the recording flag of its Collection; COMMIT nothing but the port,
the map on its first use, its Collection, and, at a write micro-step whose access goes through, the latch of the
one bank that `COMMIT_ORDER` names, by the Collection's mask: no slot, no other Collection, no other bank or
register; M1, the last micro-step, a wait and a bus error change no bank (R86, R88). -/
def Obligations.BatchCommandsChangeOnlyTheirCollection : Prop :=
  (∀ (s t : State) (c : BitVec 8), exec (.beginTx c) s = .next t →
    ∃ r, State.onlyPort (s.setColl c.toNat { s.coll c.toNat with recording := r }) t) ∧
  (∀ (s t : State) (c : BitVec 8), exec (.commit c) s = .next t →
    ∃ m x banks, State.onlyPort (State.setColl { s with map := m, banks := banks } c.toNat x) t ∧
      (s.map ≠ .unopened → m = s.map) ∧
      (nextAccess (.commit c) s = none → banks = s.banks) ∧
      (∀ k b d, s.mstep = k + 2 → s.cfg.commitOrder[k]? = some (b, d) →
        (¬s.Accessible b → banks = s.banks) ∧
        (s.Accessible b → banks = s.banks.set b
          { s.bank b with
            dataOut := driven (s.bank b).dataOut ((s.coll c.toNat).commitWord b d) (decide (d = .set)) })) ∧
      (s.mstep < s.cfg.commitOrder.length + 2 →
        x.recording = (s.coll c.toNat).recording ∧ x.pset = (s.coll c.toNat).pset ∧
        x.pclr = (s.coll c.toNat).pclr))

/-- PINNEW changes nothing but the port, the map on its first use, its slot at its third micro-step, and, at
its second, the clock of the pin's bank, which the host starts; it changes no latch and no mask (R75). -/
def Obligations.PinnewChangesOnlySlotMapAndClock : Prop :=
  ∀ (s t : State) (h : BitVec 8) (ic : Bool) (coll : BitVec 7) (num : BitVec 8),
    exec (.pinnew h ic coll num) s = .next t →
    ∃ m p k, State.onlyPort (State.setBank (State.setPin { s with map := m } h p) (pinBank (num.setWidth 7))
        { s.bank (pinBank (num.setWidth 7)) with clkEn := k }) t ∧
      (s.map ≠ .unopened → m = s.map) ∧ (s.mstep ≠ 3 → p = s.pin h) ∧
      (s.mstep ≠ 2 → k = (s.bank (pinBank (num.setWidth 7))).clkEn) ∧
      ((s.bank (pinBank (num.setWidth 7))).clkEn = true → k = true)

/-- MAPOPEN and MAPCLOSE change nothing but the port and the map (R67, R68). -/
def Obligations.MapCommandsChangeOnlyTheMap : Prop :=
  (∀ (s t : State), exec .mapopen s = .next t → ∃ m, State.onlyPort { s with map := m } t) ∧
  (∀ (s t : State), exec .mapclose s = .next t → ∃ m, State.onlyPort { s with map := m } t)

/-! ### Whole-machine rules and invariants -/

/-- Rule R18: every step, of a port or of the host, keeps the masks of every Collection disjoint, and zero
while the Collection is idle. -/
def Obligations.StepKeepsMasksConsistent : Prop :=
  ∀ s t : State, MasksConsistent s → step s = .next t → MasksConsistent t

/-- Rules R19 and R48: every step keeps the lock of each Collection in step with the COMMITs in flight: held
by a port exactly while that port is inside a COMMIT of the Collection. -/
def Obligations.StepKeepsLockMatchesCommit : Prop :=
  ∀ s t : State, LockMatchesCommit s → step s = .next t → LockMatchesCommit t

/-- Rule R66: every step keeps that handles are valid, and commands past their first micro-step, only once the
map has been opened. -/
def Obligations.StepKeepsLiveOnlyIfOpened : Prop :=
  ∀ s t : State, LiveOnlyIfOpened s → step s = .next t → LiveOnlyIfOpened t

/-- Rules R7, R13, R15 and R20: every step keeps the shape of the state: its parameters legal, its sizes those
of the parameters, its slots legal, each command in flight well formed and at a micro-step its rule has, and each
port at a legal place of its command list: no index passes the end, and the command in flight is the one there. -/
def Obligations.StepKeepsWellShaped : Prop :=
  ∀ s t : State, WellShaped s → step s = .next t → WellShaped t

/-- The invariants hold of the state after reset, whose open values are the model's choice (log 8 to 14). -/
def Obligations.ResetMeetsTheInvariants : Prop :=
  MasksConsistent State.reset ∧ LockMatchesCommit State.reset ∧ LiveOnlyIfOpened State.reset ∧
  WellShaped State.reset

/-- Rules R31 and R127: the block's reset, from any state: the map unopened, every slot invalid, every
Collection idle with zero masks and a free lock, every port at index 0 with nothing in flight; and the banks,
with what the host holds of them, and the parameters and command lists are untouched. State.reset has the
values that rule R31 states. -/
def Obligations.ResetLeavesTheStatedValues : Prop :=
  (∀ s : State,
    s.blockReset.map = .unopened ∧ (∀ h, (s.blockReset.pin h).valid = false) ∧
    s.blockReset.pins.length = s.cfg.nh ∧ s.blockReset.colls.length = s.cfg.ncoll ∧
    (∀ c, s.blockReset.coll c = ⟨false, .free, PerBank.all 0, PerBank.all 0⟩) ∧
    s.blockReset.ports.length = s.ports.length ∧
    (∀ (n : Nat) (p : Port), s.ports[n]? = some p → ∃ q : Port, s.blockReset.ports[n]? = some q ∧ q.prog = p.prog ∧ q.idx = 0 ∧
      q.flight = none) ∧
    s.blockReset.banks = s.banks ∧ s.blockReset.cfg = s.cfg ∧ s.blockReset.quiet = true) ∧
  State.reset.map = .unopened ∧ (∀ h, (State.reset.pin h).valid = false) ∧
  (∀ c, (State.reset.coll c).recording = false ∧ (State.reset.coll c).lock = .free ∧
    ∀ b, (State.reset.coll c).pset.get b = 0 ∧ (State.reset.coll c).pclr.get b = 0) ∧
  (∀ p ∈ State.reset.ports, p.idx = 0 ∧ p.flight = none)

/-- Rule R72: the open procedure runs only in state UNOPENED (in MAPOPEN, or at `RequireMap`) and always leaves
it, for OPEN or FAILED by what the identification strings say; but for MAPCLOSE no other micro-step changes the
map; and so over any run nothing returns to UNOPENED, and FAILED and CLOSED are left by no step. -/
def Obligations.MapIsOpenedAtMostOnce : Prop :=
  (∀ (i : Instr) (s t : State), exec i s = .next t →
    (s.map = .unopened → i = .mapopen ∨ needsMap i s →
      (EveryBankIdentified s.cfg → t.map = .opened) ∧ (¬EveryBankIdentified s.cfg → t.map = .failed)) ∧
    (s.map = .unopened → ¬(i = .mapopen ∨ needsMap i s) → t.map = .unopened) ∧
    (s.map ≠ .unopened → t.map = s.map ∨ (i = .mapclose ∧ s.map = .opened ∧ t.map = .closed))) ∧
  (∀ (n : Nat) (s t : State), Host.Core.run Sys2Proof.core n s = .next t →
    (s.map ≠ .unopened → t.map ≠ .unopened) ∧
    (s.map = .failed → t.map = .failed) ∧ (s.map = .closed → t.map = .closed) ∧
    (s.map = .opened → t.map = .opened ∨ t.map = .closed) ∧
    (s.map = .unopened → EveryBankIdentified s.cfg → t.map ≠ .failed) ∧
    (s.map = .unopened → ¬EveryBankIdentified s.cfg → t.map = .unopened ∨ t.map = .failed))

/-- Rules R88 and R91 (d): while a port's COMMIT holds the lock, no step of another port and no move of the
host changes anything of that Collection. -/
def Obligations.LockedCollectionIsUntouchedByOthers : Prop :=
  ∀ (s t : State) (c p : Nat), LockMatchesCommit s → c < s.colls.length → (s.coll c).lock = .held p →
    s.nextPort ≠ some p → step s = .next t → t.coll c = s.coll c

/-- Rules R20, R24 and R29: no step changes a parameter, a command list, or the number of slots, Collections
or ports; no step stops a bank's clock; and a step changes no port but the one whose turn it takes. That no move
of the host stops a clock is rule R29's assumption, not a fact of the hardware (log 20). -/
def Obligations.StepKeepsParametersAndClocks : Prop :=
  ∀ s t : State, step s = .next t →
    t.cfg = s.cfg ∧ t.pins.length = s.pins.length ∧ t.colls.length = s.colls.length ∧
    t.ports.length = s.ports.length ∧
    (∀ (n : Nat) (p q : Port), s.ports[n]? = some p → t.ports[n]? = some q → q.prog = p.prog) ∧
    (∀ b, (s.bank b).clkEn = true → (t.bank b).clkEn = true) ∧
    (∀ n : Nat, s.nextPort ≠ some n → t.ports[n]? = s.ports[n]?)

/-- Rules R140 and R45: weak fairness. From every state, every port comes to its turn within as many steps as
there are turns queued and ports: unless the run stops before, the next step is a micro-step of that port. That
the ports go in rotation after the queue is the model's choice among the fair schedules (log 3, 21). -/
def Obligations.EveryPortComesToItsTurn : Prop :=
  ∀ (s : State) (p : Nat), p < s.ports.length →
    ∃ n, n < s.turns.length + s.ports.length ∧
      ∀ t, Host.Core.run Sys2Proof.core n s = .next t → t.nextPort = some p

/-- Rules R32 and R42: under a legal layout the byte at `BANK_BASE[b] + REG_OFF[r] + k` holds bits
`8k+7 : 8k` of the stored word of register `r` of bank `b`, and SET and CLEAR store none. The byte view is the
model's (log 16); its order is the one that the spec takes from general knowledge (G5). -/
def Obligations.PageBytesAreLittleEndian : Prop :=
  ∀ (s : State) (b : BankId) (r : Reg) (k : Nat), s.cfg.layoutLegal → k < 4 →
    s.busByte (regAddress s.cfg b r + k) =
      ((s.bank b).stored r).map fun w => w.extractLsb' (8 * k) 8
end

