-- ==== Sys2Proof/Laws/Encoding.lean ====
section
/-! SUPPORT. What each field of a packed command word is: one lemma per field and format. -/

namespace Sys2Proof

/-- A slice above the low part of an append is a slice of the high part. -/
theorem extract_append_high {a b : Nat} (x : BitVec a) (y : BitVec b) (k n : Nat) (h : b ≤ k) :
    (x ++ y).extractLsb' k n = x.extractLsb' (k - b) n := by
  ext i hi
  have h1 : ¬k + i < b := by omega
  have h2 : k + i - b = k - b + i := by omega
  simp [BitVec.getLsbD_append, h1, h2]

/-- A slice within the low part of an append is a slice of the low part. -/
theorem extract_append_low {a b : Nat} (x : BitVec a) (y : BitVec b) (k n : Nat) (h : k + n ≤ b) :
    (x ++ y).extractLsb' k n = y.extractLsb' k n := by
  ext i hi
  have h1 : k + i < b := by omega
  simp [BitVec.getLsbD_append, h1]

/-- The whole of a vector as a slice. -/
theorem extract_whole {n : Nat} (x : BitVec n) : x.extractLsb' 0 n = x := by
  ext i hi
  simp

/-- A slice of zeros. -/
theorem extract_zero (m k n : Nat) : (0#m).extractLsb' k n = 0 := by
  ext i hi
  simp

/-! ### Format H with a boolean -/

theorem packHV_op (op h : BitVec 8) (v : Bool) : opField (packHV op h v) = op := by
  simp only [opField, packHV]
  rw [extract_append_high _ _ _ _ (by omega), extract_append_high _ _ _ _ (by omega),
    extract_append_high _ _ _ _ (by omega)]
  exact extract_whole op

theorem packHV_handle (op h : BitVec 8) (v : Bool) : handleField (packHV op h v) = h := by
  simp only [handleField, packHV]
  rw [extract_append_high _ _ _ _ (by omega), extract_append_high _ _ _ _ (by omega),
    extract_append_low _ _ _ _ (by omega)]
  exact extract_whole h

theorem packHV_mbz (op h : BitVec 8) (v : Bool) : (packHV op h v).extractLsb' 1 15 = 0 := by
  simp only [packHV]
  rw [extract_append_high _ _ _ _ (by omega), extract_append_low _ _ _ _ (by omega)]
  exact extract_zero ..

theorem packHV_v (op h : BitVec 8) (v : Bool) : vField (packHV op h v) = v := by
  simp only [vField, packHV, BitVec.getLsbD_append]
  cases v <;> rfl

/-! ### Format H without a boolean, and format C -/

theorem packHC_op (op h : BitVec 8) : opField (packHC op h) = op := by
  simp only [opField, packHC]
  rw [extract_append_high _ _ _ _ (by omega), extract_append_high _ _ _ _ (by omega)]
  exact extract_whole op

theorem packHC_handle (op h : BitVec 8) : handleField (packHC op h) = h := by
  simp only [handleField, packHC]
  rw [extract_append_high _ _ _ _ (by omega), extract_append_low _ _ _ _ (by omega)]
  exact extract_whole h

theorem packHC_mbz (op h : BitVec 8) : (packHC op h).extractLsb' 0 16 = 0 := by
  simp only [packHC]
  rw [extract_append_low _ _ _ _ (by omega)]
  exact extract_zero ..

/-! ### Format R -/

theorem packR_op (op : BitVec 8) (b : BankId) (r : Reg) : opField (packR op b r) = op := by
  simp only [opField, packR]
  rw [extract_append_high _ _ _ _ (by omega), extract_append_high _ _ _ _ (by omega),
    extract_append_high _ _ _ _ (by omega), extract_append_high _ _ _ _ (by omega)]
  exact extract_whole op

theorem packR_mbz (op : BitVec 8) (b : BankId) (r : Reg) :
    (packR op b r).extractLsb' 18 6 = 0 ∧ (packR op b r).extractLsb' 3 13 = 0 := by
  simp only [packR]
  constructor
  · rw [extract_append_high _ _ _ _ (by omega), extract_append_high _ _ _ _ (by omega),
      extract_append_high _ _ _ _ (by omega), extract_append_low _ _ _ _ (by omega)]
    exact extract_zero ..
  · rw [extract_append_high _ _ _ _ (by omega), extract_append_low _ _ _ _ (by omega)]
    exact extract_zero ..

theorem packR_bank (op : BitVec 8) (b : BankId) (r : Reg) : bankField (packR op b r) = b := by
  have h : (packR op b r).extractLsb' 16 2 = BitVec.ofNat 2 b.val := by
    simp only [packR]
    rw [extract_append_high _ _ _ _ (by omega), extract_append_high _ _ _ _ (by omega),
      extract_append_low _ _ _ _ (by omega)]
    exact extract_whole _
  apply Fin.ext
  simp only [bankField, h, BitVec.toNat_ofNat]
  omega

theorem packR_reg (op : BitVec 8) (b : BankId) (r : Reg) : regField (packR op b r) = some r := by
  have h : (packR op b r).extractLsb' 0 3 = r.selector := by
    simp only [packR]
    rw [extract_append_low _ _ _ _ (by omega)]
    exact extract_whole _
  simp only [regField, h]
  cases r <;> rfl

/-! ### Format P -/

theorem packP_op (h : BitVec 8) (ic : Bool) (coll : BitVec 7) (num : BitVec 8) :
    opField (encodeWord (.pinnew h ic coll num)) = 0x10 := by
  simp only [opField, encodeWord]
  rw [extract_append_high _ _ _ _ (by omega), extract_append_high _ _ _ _ (by omega),
    extract_append_high _ _ _ _ (by omega), extract_append_high _ _ _ _ (by omega)]
  exact extract_whole _

theorem packP_handle (h : BitVec 8) (ic : Bool) (coll : BitVec 7) (num : BitVec 8) :
    handleField (encodeWord (.pinnew h ic coll num)) = h := by
  simp only [handleField, encodeWord]
  rw [extract_append_high _ _ _ _ (by omega), extract_append_high _ _ _ _ (by omega),
    extract_append_high _ _ _ _ (by omega), extract_append_low _ _ _ _ (by omega)]
  exact extract_whole h

theorem packP_ic (h : BitVec 8) (ic : Bool) (coll : BitVec 7) (num : BitVec 8) :
    icField (encodeWord (.pinnew h ic coll num)) = ic := by
  simp only [icField, encodeWord, BitVec.getLsbD_append]
  cases ic <;> rfl

theorem packP_coll (h : BitVec 8) (ic : Bool) (coll : BitVec 7) (num : BitVec 8) :
    collField (encodeWord (.pinnew h ic coll num)) = coll := by
  simp only [collField, encodeWord]
  rw [extract_append_high _ _ _ _ (by omega), extract_append_low _ _ _ _ (by omega)]
  exact extract_whole coll

theorem packP_num (h : BitVec 8) (ic : Bool) (coll : BitVec 7) (num : BitVec 8) :
    numField (encodeWord (.pinnew h ic coll num)) = num := by
  simp only [numField, encodeWord]
  rw [extract_append_low _ _ _ _ (by omega)]
  exact extract_whole num

end Sys2Proof
end

