-- ==== Sys2Proof/Laws/State.lean ====
section
/-! SUPPORT. For each update of the state, one lemma per field and per accessor: what it sets, and that it
leaves the rest. Later proofs cite these and unfold no record update. -/

namespace Sys2Proof.Machine

/-! ### Banks by index -/

@[simp] theorem perBank_get_all {α : Type} (x : α) (b : BankId) : (PerBank.all x).get b = x := by
  fin_cases b <;> rfl

@[simp] theorem perBank_get_set_self {α : Type} (q : PerBank α) (b : BankId) (x : α) :
    (q.set b x).get b = x := by
  fin_cases b <;> rfl

theorem perBank_get_set_ne {α : Type} (q : PerBank α) {b b' : BankId} (x : α) (h : b' ≠ b) :
    (q.set b x).get b' = q.get b' := by
  fin_cases b <;> fin_cases b' <;> first | rfl | exact absurd rfl h

theorem perBank_get_set {α : Type} (q : PerBank α) (b b' : BankId) (x : α) :
    (q.set b x).get b' = if b' = b then x else q.get b' := by
  by_cases h : b' = b
  · subst h; simp
  · simp [h, perBank_get_set_ne]

theorem perBank_ext {α : Type} {q r : PerBank α} (h : ∀ b, q.get b = r.get b) : q = r := by
  have h0 := h 0; have h1 := h 1; have h2 := h 2; have h3 := h 3
  cases q; cases r; simp_all [PerBank.get]

@[simp] theorem perBank_set_get_self {α : Type} (q : PerBank α) (b : BankId) : q.set b (q.get b) = q :=
  perBank_ext fun b' => by rw [perBank_get_set]; split <;> simp_all

/-! ### Fields that an update leaves -/

@[simp] theorem setPort_cfg (s : State) (p : Port) : (s.setPort p).cfg = s.cfg := rfl
@[simp] theorem setPort_map (s : State) (p : Port) : (s.setPort p).map = s.map := rfl
@[simp] theorem setPort_pins (s : State) (p : Port) : (s.setPort p).pins = s.pins := rfl
@[simp] theorem setPort_colls (s : State) (p : Port) : (s.setPort p).colls = s.colls := rfl
@[simp] theorem setPort_banks (s : State) (p : Port) : (s.setPort p).banks = s.banks := rfl
@[simp] theorem setPort_turn (s : State) (p : Port) : (s.setPort p).turn = s.turn := rfl
@[simp] theorem setPort_turns (s : State) (p : Port) : (s.setPort p).turns = s.turns := rfl
@[simp] theorem setPort_draws (s : State) (p : Port) : (s.setPort p).draws = s.draws := rfl
@[simp] theorem setPort_pin (s : State) (p : Port) (h' : BitVec 8) : (s.setPort p).pin h' = s.pin h' := rfl
@[simp] theorem setPort_coll (s : State) (p : Port) (c' : Nat) : (s.setPort p).coll c' = s.coll c' := rfl
@[simp] theorem setPort_bank (s : State) (p : Port) (b' : BankId) : (s.setPort p).bank b' = s.bank b' := rfl
@[simp] theorem setPort_gate (s : State) (p : Port) (b' : BankId) : (s.setPort p).gate b' = s.gate b' := rfl

@[simp] theorem setPin_cfg (s : State) (h : BitVec 8) (p : Pin) : (s.setPin h p).cfg = s.cfg := rfl
@[simp] theorem setPin_map (s : State) (h : BitVec 8) (p : Pin) : (s.setPin h p).map = s.map := rfl
@[simp] theorem setPin_colls (s : State) (h : BitVec 8) (p : Pin) : (s.setPin h p).colls = s.colls := rfl
@[simp] theorem setPin_banks (s : State) (h : BitVec 8) (p : Pin) : (s.setPin h p).banks = s.banks := rfl
@[simp] theorem setPin_ports (s : State) (h : BitVec 8) (p : Pin) : (s.setPin h p).ports = s.ports := rfl
@[simp] theorem setPin_turn (s : State) (h : BitVec 8) (p : Pin) : (s.setPin h p).turn = s.turn := rfl
@[simp] theorem setPin_turns (s : State) (h : BitVec 8) (p : Pin) : (s.setPin h p).turns = s.turns := rfl
@[simp] theorem setPin_draws (s : State) (h : BitVec 8) (p : Pin) : (s.setPin h p).draws = s.draws := rfl
@[simp] theorem setPin_coll (s : State) (h : BitVec 8) (p : Pin) (c' : Nat) : (s.setPin h p).coll c' = s.coll c' := rfl
@[simp] theorem setPin_bank (s : State) (h : BitVec 8) (p : Pin) (b' : BankId) : (s.setPin h p).bank b' = s.bank b' := rfl
@[simp] theorem setPin_port (s : State) (h : BitVec 8) (p : Pin) : (s.setPin h p).port = s.port := rfl
@[simp] theorem setPin_mstep (s : State) (h : BitVec 8) (p : Pin) : (s.setPin h p).mstep = s.mstep := rfl
@[simp] theorem setPin_temps (s : State) (h : BitVec 8) (p : Pin) : (s.setPin h p).temps = s.temps := rfl
@[simp] theorem setPin_gate (s : State) (h : BitVec 8) (p : Pin) (b' : BankId) : (s.setPin h p).gate b' = s.gate b' := rfl

@[simp] theorem setColl_cfg (s : State) (c : Nat) (x : Collection) : (s.setColl c x).cfg = s.cfg := rfl
@[simp] theorem setColl_map (s : State) (c : Nat) (x : Collection) : (s.setColl c x).map = s.map := rfl
@[simp] theorem setColl_pins (s : State) (c : Nat) (x : Collection) : (s.setColl c x).pins = s.pins := rfl
@[simp] theorem setColl_banks (s : State) (c : Nat) (x : Collection) : (s.setColl c x).banks = s.banks := rfl
@[simp] theorem setColl_ports (s : State) (c : Nat) (x : Collection) : (s.setColl c x).ports = s.ports := rfl
@[simp] theorem setColl_turn (s : State) (c : Nat) (x : Collection) : (s.setColl c x).turn = s.turn := rfl
@[simp] theorem setColl_turns (s : State) (c : Nat) (x : Collection) : (s.setColl c x).turns = s.turns := rfl
@[simp] theorem setColl_draws (s : State) (c : Nat) (x : Collection) : (s.setColl c x).draws = s.draws := rfl
@[simp] theorem setColl_pin (s : State) (c : Nat) (x : Collection) (h' : BitVec 8) : (s.setColl c x).pin h' = s.pin h' := rfl
@[simp] theorem setColl_bank (s : State) (c : Nat) (x : Collection) (b' : BankId) : (s.setColl c x).bank b' = s.bank b' := rfl
@[simp] theorem setColl_port (s : State) (c : Nat) (x : Collection) : (s.setColl c x).port = s.port := rfl
@[simp] theorem setColl_mstep (s : State) (c : Nat) (x : Collection) : (s.setColl c x).mstep = s.mstep := rfl
@[simp] theorem setColl_temps (s : State) (c : Nat) (x : Collection) : (s.setColl c x).temps = s.temps := rfl
@[simp] theorem setColl_gate (s : State) (c : Nat) (x : Collection) (b' : BankId) : (s.setColl c x).gate b' = s.gate b' := rfl

@[simp] theorem setBank_cfg (s : State) (b : BankId) (x : Bank) : (s.setBank b x).cfg = s.cfg := rfl
@[simp] theorem setBank_map (s : State) (b : BankId) (x : Bank) : (s.setBank b x).map = s.map := rfl
@[simp] theorem setBank_pins (s : State) (b : BankId) (x : Bank) : (s.setBank b x).pins = s.pins := rfl
@[simp] theorem setBank_colls (s : State) (b : BankId) (x : Bank) : (s.setBank b x).colls = s.colls := rfl
@[simp] theorem setBank_ports (s : State) (b : BankId) (x : Bank) : (s.setBank b x).ports = s.ports := rfl
@[simp] theorem setBank_turn (s : State) (b : BankId) (x : Bank) : (s.setBank b x).turn = s.turn := rfl
@[simp] theorem setBank_turns (s : State) (b : BankId) (x : Bank) : (s.setBank b x).turns = s.turns := rfl
@[simp] theorem setBank_draws (s : State) (b : BankId) (x : Bank) : (s.setBank b x).draws = s.draws := rfl
@[simp] theorem setBank_pin (s : State) (b : BankId) (x : Bank) (h' : BitVec 8) : (s.setBank b x).pin h' = s.pin h' := rfl
@[simp] theorem setBank_coll (s : State) (b : BankId) (x : Bank) (c' : Nat) : (s.setBank b x).coll c' = s.coll c' := rfl
@[simp] theorem setBank_port (s : State) (b : BankId) (x : Bank) : (s.setBank b x).port = s.port := rfl
@[simp] theorem setBank_mstep (s : State) (b : BankId) (x : Bank) : (s.setBank b x).mstep = s.mstep := rfl
@[simp] theorem setBank_temps (s : State) (b : BankId) (x : Bank) : (s.setBank b x).temps = s.temps := rfl

@[simp] theorem respond_cfg (s : State) (st : Status) (v : Word) : (s.respond st v).cfg = s.cfg := rfl
@[simp] theorem respond_map (s : State) (st : Status) (v : Word) : (s.respond st v).map = s.map := rfl
@[simp] theorem respond_pins (s : State) (st : Status) (v : Word) : (s.respond st v).pins = s.pins := rfl
@[simp] theorem respond_colls (s : State) (st : Status) (v : Word) : (s.respond st v).colls = s.colls := rfl
@[simp] theorem respond_banks (s : State) (st : Status) (v : Word) : (s.respond st v).banks = s.banks := rfl
@[simp] theorem respond_turn (s : State) (st : Status) (v : Word) : (s.respond st v).turn = s.turn := rfl
@[simp] theorem respond_turns (s : State) (st : Status) (v : Word) : (s.respond st v).turns = s.turns := rfl
@[simp] theorem respond_draws (s : State) (st : Status) (v : Word) : (s.respond st v).draws = s.draws := rfl
@[simp] theorem respond_pin (s : State) (st : Status) (v : Word) (h' : BitVec 8) : (s.respond st v).pin h' = s.pin h' := rfl
@[simp] theorem respond_coll (s : State) (st : Status) (v : Word) (c' : Nat) : (s.respond st v).coll c' = s.coll c' := rfl
@[simp] theorem respond_bank (s : State) (st : Status) (v : Word) (b' : BankId) : (s.respond st v).bank b' = s.bank b' := rfl
@[simp] theorem respond_gate (s : State) (st : Status) (v : Word) (b' : BankId) : (s.respond st v).gate b' = s.gate b' := rfl

@[simp] theorem raise_cfg (s : State) (st : Status) : (s.raise st).cfg = s.cfg := rfl
@[simp] theorem raise_map (s : State) (st : Status) : (s.raise st).map = s.map := rfl
@[simp] theorem raise_pins (s : State) (st : Status) : (s.raise st).pins = s.pins := rfl
@[simp] theorem raise_colls (s : State) (st : Status) : (s.raise st).colls = s.colls := rfl
@[simp] theorem raise_banks (s : State) (st : Status) : (s.raise st).banks = s.banks := rfl
@[simp] theorem raise_turn (s : State) (st : Status) : (s.raise st).turn = s.turn := rfl
@[simp] theorem raise_turns (s : State) (st : Status) : (s.raise st).turns = s.turns := rfl
@[simp] theorem raise_draws (s : State) (st : Status) : (s.raise st).draws = s.draws := rfl
@[simp] theorem raise_pin (s : State) (st : Status) (h' : BitVec 8) : (s.raise st).pin h' = s.pin h' := rfl
@[simp] theorem raise_coll (s : State) (st : Status) (c' : Nat) : (s.raise st).coll c' = s.coll c' := rfl
@[simp] theorem raise_bank (s : State) (st : Status) (b' : BankId) : (s.raise st).bank b' = s.bank b' := rfl
@[simp] theorem raise_gate (s : State) (st : Status) (b' : BankId) : (s.raise st).gate b' = s.gate b' := rfl

@[simp] theorem enter_cfg (s : State) (i : Instr) (n : Nat) (t : Temps) : (s.enter i n t).cfg = s.cfg := rfl
@[simp] theorem enter_map (s : State) (i : Instr) (n : Nat) (t : Temps) : (s.enter i n t).map = s.map := rfl
@[simp] theorem enter_pins (s : State) (i : Instr) (n : Nat) (t : Temps) : (s.enter i n t).pins = s.pins := rfl
@[simp] theorem enter_colls (s : State) (i : Instr) (n : Nat) (t : Temps) : (s.enter i n t).colls = s.colls := rfl
@[simp] theorem enter_banks (s : State) (i : Instr) (n : Nat) (t : Temps) : (s.enter i n t).banks = s.banks := rfl
@[simp] theorem enter_turn (s : State) (i : Instr) (n : Nat) (t : Temps) : (s.enter i n t).turn = s.turn := rfl
@[simp] theorem enter_turns (s : State) (i : Instr) (n : Nat) (t : Temps) : (s.enter i n t).turns = s.turns := rfl
@[simp] theorem enter_draws (s : State) (i : Instr) (n : Nat) (t : Temps) : (s.enter i n t).draws = s.draws := rfl
@[simp] theorem enter_pin (s : State) (i : Instr) (n : Nat) (t : Temps) (h' : BitVec 8) : (s.enter i n t).pin h' = s.pin h' := rfl
@[simp] theorem enter_coll (s : State) (i : Instr) (n : Nat) (t : Temps) (c' : Nat) : (s.enter i n t).coll c' = s.coll c' := rfl
@[simp] theorem enter_bank (s : State) (i : Instr) (n : Nat) (t : Temps) (b' : BankId) : (s.enter i n t).bank b' = s.bank b' := rfl
@[simp] theorem enter_gate (s : State) (i : Instr) (n : Nat) (t : Temps) (b' : BankId) : (s.enter i n t).gate b' = s.gate b' := rfl

@[simp] theorem hold_cfg (s : State) (i : Instr) : (s.hold i).cfg = s.cfg := rfl
@[simp] theorem hold_map (s : State) (i : Instr) : (s.hold i).map = s.map := rfl
@[simp] theorem hold_pins (s : State) (i : Instr) : (s.hold i).pins = s.pins := rfl
@[simp] theorem hold_colls (s : State) (i : Instr) : (s.hold i).colls = s.colls := rfl
@[simp] theorem hold_banks (s : State) (i : Instr) : (s.hold i).banks = s.banks := rfl
@[simp] theorem hold_turn (s : State) (i : Instr) : (s.hold i).turn = s.turn := rfl
@[simp] theorem hold_turns (s : State) (i : Instr) : (s.hold i).turns = s.turns := rfl
@[simp] theorem hold_draws (s : State) (i : Instr) : (s.hold i).draws = s.draws := rfl
@[simp] theorem hold_pin (s : State) (i : Instr) (h' : BitVec 8) : (s.hold i).pin h' = s.pin h' := rfl
@[simp] theorem hold_coll (s : State) (i : Instr) (c' : Nat) : (s.hold i).coll c' = s.coll c' := rfl
@[simp] theorem hold_bank (s : State) (i : Instr) (b' : BankId) : (s.hold i).bank b' = s.bank b' := rfl
@[simp] theorem hold_gate (s : State) (i : Instr) (b' : BankId) : (s.hold i).gate b' = s.gate b' := rfl

@[simp] theorem openProcedure_cfg (s : State) : (s.openProcedure).cfg = s.cfg := rfl
@[simp] theorem openProcedure_pins (s : State) : (s.openProcedure).pins = s.pins := rfl
@[simp] theorem openProcedure_colls (s : State) : (s.openProcedure).colls = s.colls := rfl
@[simp] theorem openProcedure_banks (s : State) : (s.openProcedure).banks = s.banks := rfl
@[simp] theorem openProcedure_ports (s : State) : (s.openProcedure).ports = s.ports := rfl
@[simp] theorem openProcedure_turn (s : State) : (s.openProcedure).turn = s.turn := rfl
@[simp] theorem openProcedure_turns (s : State) : (s.openProcedure).turns = s.turns := rfl
@[simp] theorem openProcedure_draws (s : State) : (s.openProcedure).draws = s.draws := rfl
@[simp] theorem openProcedure_pin (s : State) (h' : BitVec 8) : (s.openProcedure).pin h' = s.pin h' := rfl
@[simp] theorem openProcedure_coll (s : State) (c' : Nat) : (s.openProcedure).coll c' = s.coll c' := rfl
@[simp] theorem openProcedure_bank (s : State) (b' : BankId) : (s.openProcedure).bank b' = s.bank b' := rfl
@[simp] theorem openProcedure_port (s : State) : (s.openProcedure).port = s.port := rfl
@[simp] theorem openProcedure_mstep (s : State) : (s.openProcedure).mstep = s.mstep := rfl
@[simp] theorem openProcedure_temps (s : State) : (s.openProcedure).temps = s.temps := rfl

@[simp] theorem startClock_cfg (s : State) (b : BankId) : (s.startClock b).cfg = s.cfg := rfl
@[simp] theorem startClock_map (s : State) (b : BankId) : (s.startClock b).map = s.map := rfl
@[simp] theorem startClock_pins (s : State) (b : BankId) : (s.startClock b).pins = s.pins := rfl
@[simp] theorem startClock_colls (s : State) (b : BankId) : (s.startClock b).colls = s.colls := rfl
@[simp] theorem startClock_ports (s : State) (b : BankId) : (s.startClock b).ports = s.ports := rfl
@[simp] theorem startClock_turn (s : State) (b : BankId) : (s.startClock b).turn = s.turn := rfl
@[simp] theorem startClock_turns (s : State) (b : BankId) : (s.startClock b).turns = s.turns := rfl
@[simp] theorem startClock_draws (s : State) (b : BankId) : (s.startClock b).draws = s.draws := rfl
@[simp] theorem startClock_pin (s : State) (b : BankId) (h' : BitVec 8) : (s.startClock b).pin h' = s.pin h' := rfl
@[simp] theorem startClock_coll (s : State) (b : BankId) (c' : Nat) : (s.startClock b).coll c' = s.coll c' := rfl
@[simp] theorem startClock_port (s : State) (b : BankId) : (s.startClock b).port = s.port := rfl
@[simp] theorem startClock_mstep (s : State) (b : BankId) : (s.startClock b).mstep = s.mstep := rfl
@[simp] theorem startClock_temps (s : State) (b : BankId) : (s.startClock b).temps = s.temps := rfl

@[simp] theorem setLock_cfg (s : State) (c : Nat) (x : Lock) : (s.setLock c x).cfg = s.cfg := rfl
@[simp] theorem setLock_map (s : State) (c : Nat) (x : Lock) : (s.setLock c x).map = s.map := rfl
@[simp] theorem setLock_pins (s : State) (c : Nat) (x : Lock) : (s.setLock c x).pins = s.pins := rfl
@[simp] theorem setLock_banks (s : State) (c : Nat) (x : Lock) : (s.setLock c x).banks = s.banks := rfl
@[simp] theorem setLock_ports (s : State) (c : Nat) (x : Lock) : (s.setLock c x).ports = s.ports := rfl
@[simp] theorem setLock_turn (s : State) (c : Nat) (x : Lock) : (s.setLock c x).turn = s.turn := rfl
@[simp] theorem setLock_turns (s : State) (c : Nat) (x : Lock) : (s.setLock c x).turns = s.turns := rfl
@[simp] theorem setLock_draws (s : State) (c : Nat) (x : Lock) : (s.setLock c x).draws = s.draws := rfl
@[simp] theorem setLock_pin (s : State) (c : Nat) (x : Lock) (h' : BitVec 8) : (s.setLock c x).pin h' = s.pin h' := rfl
@[simp] theorem setLock_bank (s : State) (c : Nat) (x : Lock) (b' : BankId) : (s.setLock c x).bank b' = s.bank b' := rfl
@[simp] theorem setLock_port (s : State) (c : Nat) (x : Lock) : (s.setLock c x).port = s.port := rfl
@[simp] theorem setLock_mstep (s : State) (c : Nat) (x : Lock) : (s.setLock c x).mstep = s.mstep := rfl
@[simp] theorem setLock_temps (s : State) (c : Nat) (x : Lock) : (s.setLock c x).temps = s.temps := rfl
@[simp] theorem setLock_gate (s : State) (c : Nat) (x : Lock) (b' : BankId) : (s.setLock c x).gate b' = s.gate b' := rfl

/-! ### What an update sets -/

@[simp] theorem setPort_ports (s : State) (p : Port) :
    (s.setPort p).ports = s.ports.set s.turn.port p := rfl

@[simp] theorem setPin_pins (s : State) (h : BitVec 8) (p : Pin) :
    (s.setPin h p).pins = s.pins.set h.toNat p := rfl

@[simp] theorem setColl_colls (s : State) (c : Nat) (x : Collection) :
    (s.setColl c x).colls = s.colls.set c x := rfl

@[simp] theorem setLock_colls (s : State) (c : Nat) (x : Lock) :
    (s.setLock c x).colls = s.colls.set c { s.coll c with lock := x } := rfl

@[simp] theorem setBank_banks (s : State) (b : BankId) (x : Bank) :
    (s.setBank b x).banks = s.banks.set b x := rfl

@[simp] theorem startClock_banks (s : State) (b : BankId) :
    (s.startClock b).banks = s.banks.set b { s.bank b with clkEn := true } := rfl

theorem openProcedure_map (s : State) :
    s.openProcedure.map = if identified s.cfg then .opened else .failed := rfl

theorem getD_set {α : Type} (l : List α) (n m : Nat) (x d : α) :
    (l.set n x).getD m d = if n = m ∧ n < l.length then x else l.getD m d := by
  simp only [List.getD_eq_getElem?_getD, List.getElem?_set]
  by_cases hnm : n = m
  · subst hnm
    by_cases hn : n < l.length <;> simp [hn]
  · simp [hnm]

theorem setPin_pin (s : State) (h h' : BitVec 8) (p : Pin) :
    (s.setPin h p).pin h' = if h = h' ∧ h.toNat < s.pins.length then p else s.pin h' := by
  simp only [State.pin, State.setPin, getD_set, BitVec.toNat_inj]

theorem setPin_pin_ne (s : State) {h h' : BitVec 8} (p : Pin) (hne : h' ≠ h) :
    (s.setPin h p).pin h' = s.pin h' := by
  rw [setPin_pin, if_neg]; exact fun hh => hne hh.1.symm

theorem setColl_coll (s : State) (c c' : Nat) (x : Collection) :
    (s.setColl c x).coll c' = if c = c' ∧ c < s.colls.length then x else s.coll c' := getD_set ..

theorem setLock_coll (s : State) (c c' : Nat) (x : Lock) :
    (s.setLock c x).coll c' =
      if c = c' ∧ c < s.colls.length then { s.coll c with lock := x } else s.coll c' := getD_set ..

theorem setColl_coll_ne (s : State) {c c' : Nat} (x : Collection) (h : c' ≠ c) :
    (s.setColl c x).coll c' = s.coll c' := by
  rw [setColl_coll, if_neg]; exact fun hh => h hh.1.symm

@[simp] theorem setBank_bank_self (s : State) (b : BankId) (x : Bank) :
    (s.setBank b x).bank b = x := perBank_get_set_self ..

theorem setBank_bank (s : State) (b b' : BankId) (x : Bank) :
    (s.setBank b x).bank b' = if b' = b then x else s.bank b' := perBank_get_set ..

theorem setBank_bank_ne (s : State) {b b' : BankId} (x : Bank) (h : b' ≠ b) :
    (s.setBank b x).bank b' = s.bank b' := perBank_get_set_ne _ _ h

theorem setPort_port (s : State) (p : Port) (h : s.turn.port < s.ports.length) :
    (s.setPort p).port = p := by
  simp [State.port, h]

theorem enter_port (s : State) (i : Instr) (n : Nat) (t : Temps) (h : s.turn.port < s.ports.length) :
    (s.enter i n t).port = { s.port with flight := some ⟨i, n, t⟩ } := setPort_port _ _ h

theorem enter_mstep (s : State) (i : Instr) (n : Nat) (t : Temps) (h : s.turn.port < s.ports.length) :
    (s.enter i n t).mstep = n := by
  simp [State.mstep, enter_port, h]

theorem enter_temps (s : State) (i : Instr) (n : Nat) (t : Temps) (h : s.turn.port < s.ports.length) :
    (s.enter i n t).temps = t := by
  simp [State.temps, enter_port, h]

theorem respond_port (s : State) (st : Status) (v : Word) (h : s.turn.port < s.ports.length) :
    (s.respond st v).port = { s.port with idx := s.port.idx + 1, flight := none, rsp := ⟨st, v⟩ } :=
  setPort_port _ _ h

theorem setPort_ports_ne (s : State) (p : Port) {q : Nat} (h : q ≠ s.turn.port) :
    (s.setPort p).ports[q]? = s.ports[q]? := by
  simp [Ne.symm h]

theorem setPort_ports_self (s : State) (p : Port) (h : s.turn.port < s.ports.length) :
    (s.setPort p).ports[s.turn.port]? = some p := by
  simp [h]

/-- The port whose turn it is, if it exists, is the entry of the list. -/
theorem port_eq_getElem? (s : State) (h : s.turn.port < s.ports.length) :
    s.ports[s.turn.port]? = some s.port := by
  simp [State.port, h]

/-- A response after a position is the response alone: nothing of the position is left. -/
theorem enter_respond (s : State) (i : Instr) (n : Nat) (t : Temps) (st : Status) (v : Word)
    (h : s.turn.port < s.ports.length) : (s.enter i n t).respond st v = s.respond st v := by
  simp only [State.respond, enter_port _ _ _ _ h]
  simp [State.setPort, State.enter, List.set_set]

/-- A later position replaces an earlier one. -/
theorem enter_enter (s : State) (i j : Instr) (n m : Nat) (t u : Temps) (h : s.turn.port < s.ports.length) :
    (s.enter i n t).enter j m u = s.enter j m u := by
  rw [State.enter, enter_port _ _ _ _ h]
  simp [State.setPort, State.enter, List.set_set]

/-- The order of a bank update and a position does not matter. -/
theorem enter_setBank (s : State) (i : Instr) (n : Nat) (t : Temps) (b : BankId) (x : Bank) :
    (s.enter i n t).setBank b x = (s.setBank b x).enter i n t := rfl

/-- The order of a Collection update and a position does not matter. -/
theorem enter_setColl (s : State) (i : Instr) (n : Nat) (t : Temps) (c : Nat) (x : Collection) :
    (s.enter i n t).setColl c x = (s.setColl c x).enter i n t := rfl

/-- The order of a slot update and a position does not matter. -/
theorem enter_setPin (s : State) (i : Instr) (n : Nat) (t : Temps) (h : BitVec 8) (p : Pin) :
    (s.enter i n t).setPin h p = (s.setPin h p).enter i n t := rfl

@[simp] theorem afterRead_ports (s : State) (r : Reg) : (s.afterRead r).ports = s.ports := by cases r <;> rfl
@[simp] theorem afterRead_turn (s : State) (r : Reg) : (s.afterRead r).turn = s.turn := by cases r <;> rfl
@[simp] theorem afterRead_turns (s : State) (r : Reg) : (s.afterRead r).turns = s.turns := by cases r <;> rfl
@[simp] theorem afterRead_cfg (s : State) (r : Reg) : (s.afterRead r).cfg = s.cfg := by cases r <;> rfl
@[simp] theorem afterRead_map (s : State) (r : Reg) : (s.afterRead r).map = s.map := by cases r <;> rfl
@[simp] theorem afterRead_pins (s : State) (r : Reg) : (s.afterRead r).pins = s.pins := by cases r <;> rfl
@[simp] theorem afterRead_colls (s : State) (r : Reg) : (s.afterRead r).colls = s.colls := by cases r <;> rfl
@[simp] theorem afterRead_banks (s : State) (r : Reg) : (s.afterRead r).banks = s.banks := by cases r <;> rfl
@[simp] theorem afterRead_port (s : State) (r : Reg) : (s.afterRead r).port = s.port := by cases r <;> rfl

@[simp] theorem lazyOpen_cfg (s : State) : s.lazyOpen.cfg = s.cfg := by
  unfold State.lazyOpen; split <;> rfl
@[simp] theorem lazyOpen_pins (s : State) : s.lazyOpen.pins = s.pins := by
  unfold State.lazyOpen; split <;> rfl
@[simp] theorem lazyOpen_colls (s : State) : s.lazyOpen.colls = s.colls := by
  unfold State.lazyOpen; split <;> rfl
@[simp] theorem lazyOpen_banks (s : State) : s.lazyOpen.banks = s.banks := by
  unfold State.lazyOpen; split <;> rfl
@[simp] theorem lazyOpen_ports (s : State) : s.lazyOpen.ports = s.ports := by
  unfold State.lazyOpen; split <;> rfl
@[simp] theorem lazyOpen_turn (s : State) : s.lazyOpen.turn = s.turn := by
  unfold State.lazyOpen; split <;> rfl
@[simp] theorem lazyOpen_turns (s : State) : s.lazyOpen.turns = s.turns := by
  unfold State.lazyOpen; split <;> rfl
@[simp] theorem lazyOpen_draws (s : State) : s.lazyOpen.draws = s.draws := by
  unfold State.lazyOpen; split <;> rfl

end Sys2Proof.Machine
end

