-- ==== Sys2Proof/Laws/Ops.lean ====
section
/-! SUPPORT. For each shared operation, once, everything it can do: if it answers a next state, then one of
these cases holds; and when an operation goes through. -/

namespace Sys2Proof.Machine

/-! ### When an access goes through -/

/-- An access that nothing stands in the way of passes the three tests of rule R33. -/
theorem gate_of_accessible {s : State} {b : BankId} (h : s.Accessible b) : s.gate b = .pass := by
  simp [State.gate, h.opened, h.clocked, h.noBusError]

/-- The three tests pass only for an access that nothing stands in the way of. -/
theorem accessible_of_gate {s : State} {b : BankId} (h : s.gate b = .pass) : s.Accessible b := by
  unfold State.gate at h
  split at h
  · cases h
  · split at h
    · cases h
    · split at h
      · cases h
      · exact ⟨by simp_all, by simp_all, by simp_all⟩

/-- The first test of rule R33 fails exactly when the map is not open. -/
theorem gate_undefined_iff {s : State} {b : BankId} :
    s.gate b = .undefinedAccess ↔ s.map ≠ .opened := by
  unfold State.gate
  split
  · simp_all
  · split
    · simp_all
    · split <;> simp_all

/-- The second test of rule R33. -/
theorem gate_hang_iff {s : State} {b : BankId} :
    s.gate b = .hang ↔ s.map = .opened ∧ (s.bank b).clkEn = false := by
  unfold State.gate
  split
  · simp_all
  · split
    · simp_all
    · split <;> simp_all

/-- The third test of rule R33. -/
theorem gate_busError_iff {s : State} {b : BankId} :
    s.gate b = .busError ↔ s.map = .opened ∧ (s.bank b).clkEn = true ∧ s.turn.busError = true := by
  unfold State.gate
  split
  · simp_all
  · split
    · simp_all
    · split <;> simp_all

/-! ### What each operation can do -/

/-- A read that answers a next state hangs, fails, or goes on with the word read. -/
theorem readThen_next {s t : State} {i : Instr} {b : BankId} {r : Reg} {k : Word → State → Result}
    (h : s.readThen i b r k = .next t) :
    (s.gate b = .hang ∧ t = s.hold i) ∨ (s.gate b = .busError ∧ t = s.raise .transientIO) ∨
    (s.gate b = .pass ∧ k (s.readWord b r) (s.afterRead r) = .next t) := by
  unfold State.readThen at h
  split at h
  · cases h
  · exact .inl ⟨by assumption, by cases h; rfl⟩
  · exact .inr (.inl ⟨by assumption, by cases h; rfl⟩)
  · exact .inr (.inr ⟨by assumption, h⟩)

/-- A write that answers a next state hangs, fails, or goes on from the written bank. -/
theorem writeThen_next {s t : State} {i : Instr} {b : BankId} {r : Reg} {v : Word} {e : State → State}
    {k : State → Result} (h : s.writeThen i b r v e k = .next t) :
    (s.gate b = .hang ∧ t = s.hold i) ∨ (s.gate b = .busError ∧ t = (e s).raise .transientIO) ∨
    (s.gate b = .pass ∧ ∃ x, (s.bank b).write r v = some x ∧ k (s.setBank b x) = .next t) := by
  unfold State.writeThen at h
  split at h
  · cases h
  · exact .inl ⟨by assumption, by cases h; rfl⟩
  · exact .inr (.inl ⟨by assumption, by cases h; rfl⟩)
  · split at h
    · cases h
    · exact .inr (.inr ⟨by assumption, _, by assumption, h⟩)

/-- The lazy open leaves the map as it was, unless it was unopened. -/
theorem lazyOpen_of_ne {s : State} (h : s.map ≠ .unopened) : s.lazyOpen = s := if_neg h

/-- The lazy open of an unopened map opens it or fails it. -/
theorem lazyOpen_of_unopened {s : State} (h : s.map = .unopened) : s.lazyOpen = s.openProcedure := if_pos h

/-- After the lazy open the map is never unopened. -/
theorem lazyOpen_map_ne (s : State) : s.lazyOpen.map ≠ .unopened := by
  unfold State.lazyOpen
  split
  · rw [openProcedure_map]; split <;> simp
  · assumption

/-- `RequireMap` that answers a next state reports a failed map or goes on with an open one. -/
theorem requireMap_next {s t : State} {k : State → Result} (h : s.requireMap k = .next t) :
    (s.lazyOpen.map = .failed ∧ t = s.lazyOpen.raise .hardwareIncompatible) ∨
    (s.lazyOpen.map = .opened ∧ k s.lazyOpen = .next t) := by
  unfold State.requireMap at h
  split at h
  · exact .inl ⟨by assumption, by cases h; rfl⟩
  · cases h
  · exact .inr ⟨by assumption, h⟩
  · exact absurd (by assumption) (lazyOpen_map_ne s)

/-- The handle check either refuses the slot or goes on with the Pin in it. -/
theorem withHandle_next {s t : State} {h : BitVec 8} {k : Pin → Result} (hn : s.withHandle h k = .next t) :
    ((s.pin h).valid = false ∧ t = s.raise .invalidOperation) ∨
    ((s.pin h).valid = true ∧ k (s.pin h) = .next t) := by
  unfold State.withHandle at hn
  split at hn
  · exact .inr ⟨by assumption, hn⟩
  · exact .inl ⟨by simp_all, by cases hn; rfl⟩

/-- A locked micro-step either waits or goes on with the Collection. -/
theorem withLock_next {s t : State} {i : Instr} {c : Nat} {k : Collection → Result}
    (h : s.withLock i c k = .next t) :
    ((∃ p, (s.coll c).lock = .held p) ∧ t = s.hold i) ∨
    ((s.coll c).lock = .free ∧ k (s.coll c) = .next t) := by
  unfold State.withLock at h
  split at h
  · exact .inr ⟨by assumption, h⟩
  · exact .inl ⟨⟨_, by assumption⟩, by cases h; rfl⟩

/-- A single-bit write that answers a next state hangs, fails, or changes the latch by its mask. -/
theorem writePhys_next {s t : State} {i : Instr} {b : BankId} {m : Word} {p : Bool}
    (h : s.writePhys i b m p = .next t) :
    (s.gate b = .hang ∧ t = s.hold i) ∨ (s.gate b = .busError ∧ t = s.raise .transientIO) ∨
    (s.gate b = .pass ∧ t = (s.setBank b
      { s.bank b with
        dataOut := if p then (s.bank b).dataOut ||| m else (s.bank b).dataOut &&& ~~~m }).respond .ok 0) := by
  rcases writeThen_next h with h | h | ⟨hg, x, hx, hk⟩
  · exact .inl h
  · exact .inr (.inl h)
  · refine .inr (.inr ⟨hg, ?_⟩)
    cases p <;> simp only [Bank.write] at hx <;> cases hx <;> cases hk <;> rfl

/-! ### The identification check -/

/-- The Boolean check of the model is the statement of rule R65. -/
theorem identified_iff (cfg : Config) : identified cfg = true ↔ EveryBankIdentified cfg := by
  have one : ∀ x : Option (List Byte), idMatches cfg x = true ↔
      ∃ str, x = some str ∧ cfg.idLen ≤ str.length ∧ str.take cfg.idLen = cfg.idPrefix := by
    intro x; cases x <;> simp [idMatches]
  simp only [identified, Bool.and_eq_true, one, EveryBankIdentified]
  constructor
  · rintro ⟨⟨⟨h0, h1⟩, h2⟩, h3⟩ b
    fin_cases b
    exacts [h0, h1, h2, h3]
  · intro h
    exact ⟨⟨⟨h 0, h 1⟩, h 2⟩, h 3⟩

end Sys2Proof.Machine
end

