-- ==== Sys2Proof/Laws/PerInstr.lean ====
section
/-! SUPPORT. One statement per instruction, over its syntax and its encoding: the encoder writes the opcode
and the must-be-zero bits that the opcode map of rule R55 gives the instruction's row. -/

namespace Sys2Proof.Laws

/-- A masked word is the value exactly when it has the value's bit at each place of the mask. -/
theorem masked_eq_iff (w m v : Word) :
    w &&& m = v ↔ ∀ k : Nat, k < 32 → (w.getLsbD k && m.getLsbD k) = v.getLsbD k := by
  constructor
  · rintro rfl k _
    simp
  · intro h
    apply BitVec.eq_of_getLsbD_eq
    intro k hk
    simp [h k hk]

/-- The fixed bits of format R. -/
theorem packR_masked (op : BitVec 8) (b : BankId) (r : Reg) :
    packR op b r &&& 0xFFFCFFF8 = op ++ 0#24 := by
  rw [masked_eq_iff]
  intro k hk
  simp only [packR, BitVec.getLsbD_append]
  interval_cases k <;> simp

/-- The fixed bits of format H with a boolean. -/
theorem packHV_masked (op h : BitVec 8) (v : Bool) : packHV op h v &&& 0xFF00FFFE = op ++ 0#24 := by
  rw [masked_eq_iff]
  intro k hk
  simp only [packHV, BitVec.getLsbD_append]
  interval_cases k <;> simp

/-- The fixed bits of format H without a boolean, and of format C. -/
theorem packHC_masked (op h : BitVec 8) : packHC op h &&& 0xFF00FFFF = op ++ 0#24 := by
  rw [masked_eq_iff]
  intro k hk
  simp only [packHC, BitVec.getLsbD_append]
  interval_cases k <;> simp

end Sys2Proof.Laws

namespace Sys2Proof.Laws.EncodeMatchesRow

/-- The command word of an instruction matches the row of the opcode map that rule R55 gives it. -/
def Statement (i : Instr) : Prop := encodeWord i &&& (opcodeRow i).mask = (opcodeRow i).value

theorem mapopen : Statement .mapopen := by unfold Statement; decide

theorem mapclose : Statement .mapclose := by unfold Statement; decide

theorem regrd (b : BankId) (r : Reg) : Statement (.regrd b r) := packR_masked _ b r

theorem regwr (b : BankId) (r : Reg) (w : Word) : Statement (.regwr b r w) := packR_masked _ b r

theorem pinnew (h : BitVec 8) (ic : Bool) (coll : BitVec 7) (num : BitVec 8) :
    Statement (.pinnew h ic coll num) := by
  unfold Statement
  rw [masked_eq_iff]
  intro k hk
  simp only [encodeWord, opcodeRow, BitVec.getLsbD_append]
  interval_cases k <;> simp

theorem setstate (h : BitVec 8) (v : Bool) : Statement (.setstate h v) := packHV_masked _ h v

theorem setimm (h : BitVec 8) (v : Bool) : Statement (.setimm h v) := packHV_masked _ h v

theorem getstate (h : BitVec 8) : Statement (.getstate h) := packHC_masked _ h

theorem chkdir (h : BitVec 8) : Statement (.chkdir h) := packHC_masked _ h

theorem setactlow (h : BitVec 8) (v : Bool) : Statement (.setactlow h v) := packHV_masked _ h v

theorem setdeb (h : BitVec 8) (v : Bool) : Statement (.setdeb h v) := packHV_masked _ h v

theorem beginTx (c : BitVec 8) : Statement (.beginTx c) := packHC_masked _ c

theorem commit (c : BitVec 8) : Statement (.commit c) := packHC_masked _ c

theorem getpend (h : BitVec 8) : Statement (.getpend h) := packHC_masked _ h

end Sys2Proof.Laws.EncodeMatchesRow
end

