-- ==== Sys2Proof/Laws/Step.lean ====
section
/-! SUPPORT. For a step, the micro-step of a port and a run, once, everything each can do. -/

namespace Sys2Proof.Machine

/-! ### The turn of a step -/

@[simp] theorem taking_turn (s : State) (t : PortTurn) : (s.taking t).turn = t := rfl
@[simp] theorem taking_turns (s : State) (t : PortTurn) : (s.taking t).turns = s.turns.tail := rfl
@[simp] theorem taking_cfg (s : State) (t : PortTurn) : (s.taking t).cfg = s.cfg := rfl
@[simp] theorem taking_map (s : State) (t : PortTurn) : (s.taking t).map = s.map := rfl
@[simp] theorem taking_pins (s : State) (t : PortTurn) : (s.taking t).pins = s.pins := rfl
@[simp] theorem taking_colls (s : State) (t : PortTurn) : (s.taking t).colls = s.colls := rfl
@[simp] theorem taking_banks (s : State) (t : PortTurn) : (s.taking t).banks = s.banks := rfl
@[simp] theorem taking_ports (s : State) (t : PortTurn) : (s.taking t).ports = s.ports := rfl
@[simp] theorem taking_draws (s : State) (t : PortTurn) : (s.taking t).draws = s.draws := rfl
@[simp] theorem taking_pin (s : State) (t : PortTurn) (h : BitVec 8) : (s.taking t).pin h = s.pin h := rfl
@[simp] theorem taking_coll (s : State) (t : PortTurn) (c : Nat) : (s.taking t).coll c = s.coll c := rfl
@[simp] theorem taking_bank (s : State) (t : PortTurn) (b : BankId) : (s.taking t).bank b = s.bank b := rfl
@[simp] theorem rotated_port (s : State) : s.rotated.port = (s.turn.port + 1) % s.ports.length := rfl

/-- A step that answers a next state is a move of the host, or a micro-step of the port whose turn comes. -/
theorem step_next {s t : State} (h : step s = .next t) :
    (∃ m ts, s.turns = .host m :: ts ∧ t = ({ s with turns := ts } : State).hostMove m) ∨
    (∃ p, s.nextTurn = some p ∧ runPort (s.taking p) = .next t) := by
  obtain ⟨cfg, map, pins, colls, banks, ports, turn, turns, draws⟩ := s
  cases turns with
  | nil => exact .inr ⟨_, rfl, h⟩
  | cons a ts =>
    cases a with
    | port p => exact .inr ⟨p, rfl, h⟩
    | host m => cases h; exact .inl ⟨m, ts, rfl, rfl⟩

/-- A port's turn that answers a next state has nothing to do, answers an illegal command, or runs the
instruction that is in flight or presented. -/
theorem runPort_next {s t : State} (h : runPort s = .next t) :
    t = s ∨
    (∃ p c e, s.ports[s.turn.port]? = some p ∧ p.flight = none ∧ p.prog[p.idx]? = some c ∧
      decode s.cfg c = .error e ∧ t = s.raise .illegalCommand) ∨
    (∃ p i, s.ports[s.turn.port]? = some p ∧ exec i s = .next t ∧
      ((∃ f, p.flight = some f ∧ f.instr = i) ∨
        (p.flight = none ∧ ∃ c, p.prog[p.idx]? = some c ∧ decode s.cfg c = .ok i))) := by
  unfold runPort State.fetch fetchCommand Port.nextCommand at h
  cases hp : s.ports[s.turn.port]? with
  | none => rw [hp] at h; cases h; exact .inl rfl
  | some p =>
    rw [hp] at h
    cases hf : p.flight with
    | some f =>
      simp only [hf] at h
      exact .inr (.inr ⟨p, _, rfl, h, .inl ⟨f, hf, rfl⟩⟩)
    | none =>
      cases hc : p.prog[p.idx]? with
      | none => simp only [hf, hc] at h; cases h; exact .inl rfl
      | some c =>
        cases hd : decode s.cfg c with
        | error e => simp only [hf, hc, hd] at h; cases h; exact .inr (.inl ⟨p, c, e, rfl, hf, hc, hd, rfl⟩)
        | ok i => simp only [hf, hc, hd] at h; exact .inr (.inr ⟨p, i, rfl, h, .inr ⟨hf, c, hc, hd⟩⟩)

/-- A move of the host changes no part of the block. -/
theorem hostMove_block (s : State) (m : HostMove) :
    (s.hostMove m).cfg = s.cfg ∧ (s.hostMove m).map = s.map ∧ (s.hostMove m).pins = s.pins ∧
    (s.hostMove m).colls = s.colls ∧ (s.hostMove m).ports = s.ports ∧ (s.hostMove m).turn = s.turn ∧
    (s.hostMove m).turns = s.turns ∧ (s.hostMove m).draws = s.draws := by
  cases m <;> exact ⟨rfl, rfl, rfl, rfl, rfl, rfl, rfl, rfl⟩

/-! ### Runs -/

/-- A run that answers a next state after its first step goes on from that step's state. -/
theorem run_succ_next {n : Nat} {s t : State} (h : Host.Core.run Sys2Proof.core (n + 1) s = .next t) :
    ∃ u, step s = .next u ∧ Host.Core.run Sys2Proof.core n u = .next t := by
  cases hu : step s with
  | next u => exact ⟨u, rfl, by simpa [Host.Core.run, Sys2Proof.core, hu] using h⟩
  | fault f => simp [Host.Core.run, Sys2Proof.core, hu] at h
  | refused r => simp [Host.Core.run, Sys2Proof.core, hu] at h

/-- The responses of a run whose first step answers are that step's and then the rest's. -/
theorem responses_succ {p n : Nat} {s u : State} (h : step s = .next u) :
    responses p (n + 1) s = delivered p s u ++ responses p n u := by
  simp [responses, h]

/-! ### Single-bit writes -/

/-- A single-bit write that goes through drives the latch and answers OK. -/
theorem writePhys_pass {s : State} {b : BankId} (h : s.Accessible b) (i : Instr) (m : Word) (v : Bool) :
    s.writePhys i b m v = .next ((s.drive b m v).respond .ok 0) := by
  unfold State.writePhys State.writeThen
  rw [gate_of_accessible h]
  cases v <;> rfl

end Sys2Proof.Machine
end

