-- ==== Sys2Proof/Tests/Slice0.lean ====
section
/-! SUPPORT. Tests from the vectors of spec/95_test_vectors.md, and for each obligation with hypotheses a
concrete state and operands that meet them. -/

namespace Sys2Proof.Tests

open Sys2Proof.Machine

/-! ### Legality: an ill-formed term for each check (R57, R59) -/

theorem test_wf_refuses_handle : (Instr.getstate 16).wellFormed Config.standard = false := by decide
theorem test_wf_refuses_handle_of_setters :
    (Instr.setstate 16 true).wellFormed Config.standard = false ∧
    (Instr.setimm 16 true).wellFormed Config.standard = false ∧
    (Instr.setactlow 16 true).wellFormed Config.standard = false ∧
    (Instr.setdeb 16 true).wellFormed Config.standard = false ∧
    (Instr.chkdir 16).wellFormed Config.standard = false ∧
    (Instr.getpend 16).wellFormed Config.standard = false := by decide
theorem test_wf_refuses_pinnew_handle :
    (Instr.pinnew 16 false 0 3).wellFormed Config.standard = false := by decide
theorem test_wf_refuses_pinnew_collection :
    (Instr.pinnew 0 true 2 3).wellFormed Config.standard = false := by decide
theorem test_wf_refuses_collection_without_ic :
    (Instr.pinnew 0 false 1 40).wellFormed Config.standard = false := by decide
theorem test_wf_refuses_collection :
    (Instr.beginTx 2).wellFormed Config.standard = false ∧
    (Instr.commit 2).wellFormed Config.standard = false := by decide
theorem test_wf_accepts_largest :
    (Instr.pinnew 15 true 1 255).wellFormed Config.standard = true ∧
    (Instr.commit 1).wellFormed Config.standard = true := by decide
theorem test_standard_config_legal : Config.standard.legal := by decide

/-! ### Decoding: the words of vectors V1 to V19, written out from the encoding -/

/-- The decoding of a command word under the parameters of the vectors, with the side operand 0. -/
def dec (w : Word) : Except DecodeError Instr := decode Config.standard ⟨w, 0⟩

theorem test_decode_mapopen : dec 0x01000000 = .ok .mapopen := by decide
theorem test_decode_mapclose : dec 0x02000000 = .ok .mapclose := by decide
theorem test_decode_regrd_datain : dec 0x03000000 = .ok (.regrd 0 .dataIn) := by decide
theorem test_decode_regrd_oe : dec 0b00000011_000000_11_0000000000000_110 = .ok (.regrd 3 .oe) := by decide
theorem test_decode_regwr :
    decode Config.standard ⟨0b00000100_000000_10_0000000000000_101, 0x000000FF⟩ =
      .ok (.regwr 2 .debTime 0x000000FF) := by decide
theorem test_decode_pinnew_free : dec 0x10000028 = .ok (.pinnew 0 false 0 40) := by decide
theorem test_decode_pinnew_largest :
    dec 0b00010000_00001111_1_0000001_01111111 = .ok (.pinnew 15 true 1 127) := by decide
theorem test_decode_setstate : dec 0b00010001_00000001_000000000000000_1 = .ok (.setstate 1 true) := by decide
theorem test_decode_setimm : dec 0x12010000 = .ok (.setimm 1 false) := by decide
theorem test_decode_getstate : dec 0x13020000 = .ok (.getstate 2) := by decide
theorem test_decode_chkdir : dec 0x14050000 = .ok (.chkdir 5) := by decide
theorem test_decode_setactlow : dec 0x15000001 = .ok (.setactlow 0 true) := by decide
theorem test_decode_setdeb : dec 0x16050000 = .ok (.setdeb 5 false) := by decide
theorem test_decode_begin : dec 0b00100000_00000001_0000000000000000 = .ok (.beginTx 1) := by decide
theorem test_decode_commit : dec 0x21010000 = .ok (.commit 1) := by decide
theorem test_decode_getpend : dec 0x22030000 = .ok (.getpend 3) := by decide
theorem test_decode_ignores_wdata :
    decode Config.standard ⟨0x11010001, 0xDEADBEEF⟩ = .ok (.setstate 1 true) := by decide

theorem test_illegal_opcodes :
    dec 0x00000000 = .error .unknownOpcode ∧ dec 0x7F000000 = .error .unknownOpcode ∧
    dec 0x05000000 = .error .unknownOpcode ∧ dec 0x17000000 = .error .unknownOpcode ∧
    dec 0x23000000 = .error .unknownOpcode ∧ dec 0xFF000000 = .error .unknownOpcode := by decide
theorem test_illegal_mbz :
    dec 0x01000001 = .error .mustBeZero ∧ dec 0x03040000 = .error .mustBeZero ∧
    dec 0x03000008 = .error .mustBeZero ∧ dec 0x13010001 = .error .mustBeZero ∧
    dec 0x11010002 = .error .mustBeZero ∧ dec 0x21000001 = .error .mustBeZero := by decide
theorem test_illegal_operands :
    dec 0x03000007 = .error .reservedRegister ∧ dec 0x10000128 = .error .collectionWithoutIc ∧
    dec 0x10100003 = .error .handleRange ∧ dec 0x10008203 = .error .collectionRange ∧
    dec 0x20020000 = .error .collectionRange ∧ dec 0x22100000 = .error .handleRange := by decide

theorem test_encode_is_the_vector_word :
    encode (.pinnew 4 true 1 64) = ⟨0x10048140, 0⟩ ∧
    encode (.regwr 2 .debTime 0xFF) = ⟨0x04020005, 0xFF⟩ := by decide
theorem test_decodeTableWord : decodeTableWord 32 0x100F817F = some (.pinnew 15 true 1 127) := by decide
theorem test_decodeTableWord_wide : decodeTableWord 64 0x000000FF04020005 = some (.regwr 2 .debTime 0xFF) := by
  decide

/-! ### The small states of the vectors -/

/-- The registers of the vectors' parts 2.4 to 2.6: pins 3, 5, 9, 33 and 40 are OUT, pins 126 and 127 are IN,
the clocks run. -/
def banks : PerBank Bank where
  b0 := ⟨0x00000200, 0xFFFFFDD7, 0, 0, 0, true⟩
  b1 := ⟨0x00000000, 0xFFFFFEFD, 0, 0, 0, true⟩
  b2 := ⟨0x00000000, 0x00000000, 0, 0x000000A5, 0, true⟩
  b3 := ⟨0x00000000, 0xC0000000, 0x00000010, 0, 0x80000000, true⟩

/-- The handles of the vectors, and three more: 4 is active low on Collection 1, 7 is active low, 8 is IN. -/
def pins : List Pin :=
  [⟨true, 40, false, false, 0⟩, ⟨true, 3, false, true, 0⟩, ⟨true, 9, false, true, 0⟩,
   ⟨true, 5, false, true, 0⟩, ⟨true, 33, true, true, 1⟩, ⟨true, 127, false, false, 0⟩,
   ⟨true, 96, false, false, 0⟩, ⟨true, 40, true, false, 0⟩, ⟨true, 126, false, false, 0⟩] ++
  List.replicate 7 Pin.empty

/-- Two ports with nothing in flight, the first with the turn, an open map and idle Collections. -/
def demo : State :=
  { State.reset with map := .opened, pins := pins, banks := banks }

/-- Collection 0 recording, with pins 3 and 9 pending as after the sixth command of program P1. -/
def recording : Collection := ⟨true, .free, ⟨0x8, 0, 0, 0⟩, ⟨0x200, 0, 0, 0⟩⟩

/-- `demo` with that transaction open. -/
def demoRec : State := demo.setColl 0 recording

/-- `s` with a command list on the port of the present turn, and two turns of that port queued. -/
def withProg (s : State) (p : List Command) : State :=
  { s.setPort { s.port with prog := p } with turns := [.port s.turn, .port s.turn] }

/-- What a result shows of its state, if it is one. -/
def see {α : Type} (f : State → α) : Result → Option α
  | .next t => some (f t)
  | .fault _ => none
  | .refused _ => none

/-- The response that port 0 holds. -/
def answer : Result → Option Response := see fun t => t.port.rsp

/-- The fault of a result. -/
def faultOf : Result → Option Fault
  | .next _ => none
  | .fault f => some f
  | .refused _ => none

/-- `s` under other identification strings. -/
def withId (s : State) (q : PerBank (Option (List Byte))) : State := { s with cfg := { s.cfg with idStr := q } }

/-- The strings of V22: bank 2 says `ti,omap3-gpio`. -/
def wrongId : PerBank (Option (List Byte)) :=
  { PerBank.all (some Config.omapId) with
    b2 := some [0x74, 0x69, 0x2C, 0x6F, 0x6D, 0x61, 0x70, 0x33, 0x2D, 0x67, 0x70, 0x69, 0x6F] }

/-! ### One command each, with the results that the vectors give -/

theorem test_mapopen_short_string :
    see (fun t => (t.map, t.port.rsp.status))
      (exec .mapopen (withId State.reset
        { PerBank.all (some Config.omapId) with b0 := some (Config.omapId.take 12) })) =
      some (.failed, .hardwareIncompatible) := by decide
theorem test_mapopen_longer_string :
    see (fun t => (t.map, t.port.rsp.status))
      (exec .mapopen (withId State.reset (PerBank.all (some (Config.omapId ++ [0x2D, 0x65]))))) =
      some (.opened, .ok) := by decide
theorem test_mapclose_unopened :
    see (fun t => (t.map, t.port.rsp)) (exec .mapclose State.reset) = some (.unopened, ⟨.ok, 0⟩) := by decide
theorem test_mapclose_open :
    see (fun t => (t.map, t.port.idx)) (exec .mapclose demo) = some (.closed, 1) := by decide
theorem test_regrd_opens_the_map :
    see (fun t => (t.map, t.port.rsp.rdata)) (runInstr (.regrd 1 .oe) 2 { demo with map := .unopened }) =
      some (.opened, 0xFFFFFEFD) := by decide
theorem test_regrd_debtime : answer (runInstr (.regrd 2 .debTime) 2 demo) = some ⟨.ok, 0x000000A5⟩ := by decide
theorem test_regwr_set :
    see (fun t => (t.bank 0).dataOut) (runInstr (.regwr 0 .set 0x00000008) 2 demo) = some 0x00000208 := by decide
theorem test_regwr_clear :
    see (fun t => (t.bank 0).dataOut) (runInstr (.regwr 0 .clear 0x00000208) 2 demo) = some 0x00000000 := by decide
theorem test_pinnew_rebinds :
    see (fun t => t.pin 7) (runInstr (.pinnew 7 true 1 3) 3 demo) = some ⟨true, 3, false, true, 1⟩ := by decide
theorem test_pinnew_export_fails :
    see (fun t => (t.map, (t.pin 9).valid, t.port.rsp.status))
      (runInstr (.pinnew 9 false 0 40) 2 { demo with map := .unopened, turn := ⟨0, false, false⟩ }) =
      some (.opened, false, .resourceUnavailable) := by decide
theorem test_setstate_active_low :
    see (fun t => (t.bank 1).dataOut) (exec (.setstate 7 false) demo) = some 0x00000100 := by decide
theorem test_setstate_last_buffered_wins :
    see (fun t => ((t.coll 0).pset.b0, (t.coll 0).pclr.b0, (t.bank 0).dataOut))
      (exec (.setstate 1 false) demoRec) = some (0, 0x00000208, 0x00000200) := by decide
theorem test_setimm_while_recording :
    see (fun t => ((t.bank 0).dataOut, (t.coll 0).pset.b0)) (exec (.setimm 1 true) demoRec) =
      some (0x00000208, 0x8) := by decide
theorem test_getstate_sees_the_latch_not_the_mask :
    answer (runInstr (.getstate 2) 2 demoRec) = some ⟨.ok, 1⟩ := by decide
theorem test_getstate_in_pin : answer (runInstr (.getstate 5) 2 demo) = some ⟨.ok, 1⟩ := by decide
theorem test_chkdir_in : answer (exec (.chkdir 5) demo) = some ⟨.ok, 0⟩ := by decide
theorem test_chkdir_out : answer (exec (.chkdir 6) demo) = some ⟨.ok, 1⟩ := by decide
theorem test_setactlow_rewrites :
    see (fun t => ((t.pin 0).al, (t.bank 1).dataOut, t.port.rsp.status)) (runInstr (.setactlow 0 true) 4 demo) =
      some (true, 0x00000100, .ok) := by decide
theorem test_setactlow_same_flag :
    see (fun t => ((t.bank 1).dataOut, t.port.idx)) (runInstr (.setactlow 7 true) 3 demo) =
      some (0x00000000, 1) := by decide
theorem test_setdeb_in :
    see (fun t => (t.bank 3).debEn) (runInstr (.setdeb 5 true) 3 demo) = some 0x80000010 := by decide
theorem test_setdeb_out :
    see (fun t => ((t.bank 3).debEn, t.port.rsp.status)) (exec (.setdeb 6 true) demo) =
      some (0x00000010, .invalidOperation) := by decide
theorem test_begin_keeps_masks :
    see (fun t => t.coll 0) (exec (.beginTx 0) demoRec) = some recording := by decide
theorem test_commit_flushes :
    see (fun t => ((t.bank 0).dataOut, t.coll 0, t.port.rsp.status)) (runInstr (.commit 0) 10 demoRec) =
      some (0x00000008, Collection.idle, .ok) := by decide
theorem test_commit_hangs_at_write_seven :
    see (fun t => ((t.bank 0).dataOut, (t.coll 0).lock, t.port.idx, t.mstep))
      (runInstr (.commit 0) 20 (demoRec.setBank 3 { banks.b3 with clkEn := false })) =
      some (0x00000008, .held 0, 0, 8) := by decide
theorem test_getpend_known_true : answer (exec (.getpend 1) demoRec) = some ⟨.ok, 3⟩ := by decide
theorem test_getpend_unknown : answer (exec (.getpend 3) demoRec) = some ⟨.ok, 0⟩ := by decide

/-! ### Errors, faults and steps -/

theorem test_handle_check_before_the_map :
    answer (exec (.getstate 9) { demo with map := .closed }) = some ⟨.invalidOperation, 0⟩ := by decide
theorem test_access_after_close_faults :
    faultOf (exec (.getstate 5) { demo with map := .closed }) = some .useAfterClose := by decide
theorem test_clock_test_before_bus_error :
    see (fun t => (t.port.idx, t.mstep))
      (exec (.chkdir 6) ({ demo with turn := ⟨0, true, true⟩ }.setBank 3 { banks.b3 with clkEn := false })) =
      some (0, 1) := by decide
theorem test_bus_error_is_reported :
    answer (exec (.setimm 6 true) { demo with turn := ⟨0, true, true⟩ }) = some ⟨.transientIO, 0⟩ := by decide
theorem test_step_answers_an_illegal_word :
    see (fun t => (t.port.rsp.status, t.port.idx, t.map)) (step (withProg State.reset [⟨0x7F000000, 0⟩])) =
      some (.illegalCommand, 1, .unopened) := by decide
theorem test_step_runs_the_placed_word :
    see (fun t => t.port.flight) (step (State.reset.withFetchWord 32 0x03030006)) =
      some (some ⟨.regrd 3 .oe, 2, Temps.none⟩) := by decide
theorem test_host_move_is_one_step :
    see (fun t => ((t.bank 0).padIn, t.turns)) (step { demo with turns := [.host (.drivePads 0 0x1)] }) =
      some (0x00000001, []) := by decide
theorem test_ports_go_in_rotation :
    demo.nextPort = some 1 ∧ ({ demo with turn := ⟨1, false, true⟩ } : State).nextPort = some 0 := by decide
theorem test_observed_responses :
    (observe 2 (withProg State.reset [⟨0x01000000, 0⟩])).map (fun o => (o.responses, o.map)) =
      some ([[⟨.ok, 0⟩], []], .opened) := by decide
theorem test_unfinished_run_has_no_result :
    observe 1 (withProg State.reset [⟨0x01000000, 0⟩, ⟨0x02000000, 0⟩]) = none := by decide
theorem test_bytes_are_little_endian :
    demo.busByte (0x44E07000 + 0x13C + 1) = some 0x02 ∧ demo.busByte (0x44E07000 + 0x194) = none := by decide

end Sys2Proof.Tests
end

