-- ==== Sys2Proof/Tests/Witnesses.lean ====
section
/-! SUPPORT. For each obligation that has hypotheses, a concrete state and operands that meet all of them
together, one for each clause and at boundary values; witness_<Name> belongs to Obligations.<Name>. -/

namespace Sys2Proof.Tests

open Sys2Proof.Machine

/-! ### The demonstration states meet the named conditions -/

theorem demo_ready : demo.Ready := ⟨by decide, by decide⟩

/-- `demo` with the command `i` waiting at its first micro-step. -/
def waiting (i : Instr) : State := demo.enter i 1 Temps.none

theorem waiting_ready (i : Instr) : (waiting i).Ready := ⟨Nat.zero_lt_succ 1, rfl⟩

theorem demo_accessible (b : BankId) : demo.Accessible b := by
  fin_cases b <;> exact ⟨by decide, by decide, by decide⟩

theorem demoRec_ready : demoRec.Ready := ⟨by decide, by decide⟩

theorem waiting_accessible (i : Instr) (b : BankId) : (waiting i).Accessible b :=
  ⟨rfl, (demo_accessible b).clocked, rfl⟩

theorem standard_identified : EveryBankIdentified Config.standard := by
  intro b
  refine ⟨Config.omapId, ?_, by decide, by decide⟩
  fin_cases b <;> rfl

theorem wrongId_not_identified : ¬EveryBankIdentified (withId demo wrongId).cfg := by
  intro h
  obtain ⟨str, h1, -, h3⟩ := h 2
  have : str = [0x74, 0x69, 0x2C, 0x6F, 0x6D, 0x61, 0x70, 0x33, 0x2D, 0x67, 0x70, 0x69, 0x6F] := by
    have h4 : some [0x74, 0x69, 0x2C, 0x6F, 0x6D, 0x61, 0x70, 0x33, 0x2D, 0x67, 0x70, 0x69, 0x6F] = some str := h1
    injection h4 with h5
    exact h5.symm
  subst this
  revert h3
  decide

theorem demo_colls (c : Nat) : demo.coll c = Collection.idle := by
  match c with
  | 0 => rfl
  | 1 => rfl
  | n + 2 => rfl

theorem demo_masks : MasksConsistent demo := by
  intro c b
  rw [demo_colls]
  fin_cases b <;> decide

theorem demoRec_masks : MasksConsistent demoRec := by
  intro c b
  match c with
  | 0 => fin_cases b <;> decide
  | 1 => fin_cases b <;> decide
  | n + 2 => fin_cases b <;> simp [demoRec, State.setColl, State.coll, demo, State.reset] <;> decide

/-- `demo` with port 1 inside a COMMIT of Collection 1, whose lock it holds. -/
def locked : State :=
  { demo.setColl 1 { Collection.idle with lock := .held 1 } with
    ports := [Port.start [⟨0x20010000, 0⟩], ⟨[⟨0x21010000, 0⟩], 0, some ⟨.commit 1, 9, Temps.none⟩, ⟨.ok, 0⟩⟩] }

theorem locked_matches : LockMatchesCommit locked := by
  intro c p hc
  have hc2 : c < 2 := hc
  constructor
  · intro hl
    match c, hc2 with
    | 0, _ =>
      have hp : Lock.free = .held p := hl
      cases hp
    | 1, _ =>
      have hp : (Lock.held 1) = .held p := hl
      cases hp
      exact ⟨_, _, 1, rfl, rfl, rfl, rfl, by decide⟩
  · rintro ⟨q, f, x, hq, hf, hi, hx, -⟩
    match p with
    | 0 =>
      have : Port.start [⟨0x20010000, 0⟩] = q := by injection hq
      subst this
      cases hf
    | 1 =>
      have : (⟨[⟨0x21010000, 0⟩], 0, some ⟨.commit 1, 9, Temps.none⟩, ⟨.ok, 0⟩⟩ : Port) = q := by injection hq
      subst this
      cases hf
      cases hi
      cases hx
      rfl
    | n + 2 => cases hq

theorem demo_live : LiveOnlyIfOpened demo := .inl rfl

/-- `State.reset` with a command in flight at its first micro-step: the third case of `LiveOnlyIfOpened`. -/
def waitingReset : State :=
  { State.reset with ports := [⟨[⟨0x21010000, 0⟩], 0, some ⟨.commit 1, 1, Temps.none⟩, ⟨.ok, 0⟩⟩, Port.start []] }

theorem waitingReset_live : LiveOnlyIfOpened waitingReset := by
  refine .inr (.inr ⟨by decide, ?_⟩)
  intro p hp f hf
  have hp' : p = ⟨[⟨0x21010000, 0⟩], 0, some ⟨.commit 1, 1, Temps.none⟩, ⟨.ok, 0⟩⟩ ∨ p = Port.start [] := by
    simpa [waitingReset] using hp
  rcases hp' with rfl | rfl
  · cases hf; decide
  · cases hf

theorem locked_shaped : WellShaped locked where
  legal_cfg := by decide
  slots := rfl
  collections := rfl
  requesters := rfl
  pins_legal := by unfold Pin.legal; decide
  flights_legal := by
    intro p hp f hf
    have hp' : p = Port.start [⟨0x20010000, 0⟩] ∨
        p = ⟨[⟨0x21010000, 0⟩], 0, some ⟨.commit 1, 9, Temps.none⟩, ⟨.ok, 0⟩⟩ := by
      simpa [locked] using hp
    rcases hp' with rfl | rfl
    · cases hf
    · cases hf
      exact ⟨by decide, by decide, by decide⟩
  ports_legal := by
    intro p hp
    have hp' : p = Port.start [⟨0x20010000, 0⟩] ∨
        p = ⟨[⟨0x21010000, 0⟩], 0, some ⟨.commit 1, 9, Temps.none⟩, ⟨.ok, 0⟩⟩ := by
      simpa [locked] using hp
    rcases hp' with rfl | rfl
    · exact ⟨by decide, fun _ hf => by cases hf⟩
    · refine ⟨by decide, fun _ hf => ?_⟩
      cases hf
      exact ⟨_, rfl, by decide⟩

/-! ### Encoding -/

theorem witness_DecodeOfEncodeIsTheInstruction :
    (Instr.pinnew 15 true 1 255).wellFormed Config.standard = true := by decide

theorem witness_EncodeOfDecodeIsTheCommandWord :
    decode Config.standard ⟨0x04030006, 0xFFFFFFFF⟩ = .ok (.regwr 3 .oe 0xFFFFFFFF) ∧
    decode Config.standard ⟨0x100F817F, 0xFFFFFFFF⟩ = .ok (.pinnew 15 true 1 127) ∧
    (∀ b r w, Instr.pinnew 15 true 1 127 ≠ .regwr b r w) := ⟨by decide, by decide, by simp⟩

theorem witness_DecodeFollowsTheOpcodeMap :
    decodeShape ⟨0x16FF0001, 0⟩ = .ok (.setdeb 255 true) ∧
    (0x16FF0001 : Word) &&& (opcodeRow (.setdeb 0 false)).mask = (opcodeRow (.setdeb 0 false)).value ∧
    (0x03030007 : Word) &&& (opcodeRow (.regrd 0 .oe)).mask = (opcodeRow (.regrd 0 .oe)).value ∧
    (0x10007F00 : Word) &&& (opcodeRow (.pinnew 0 false 0 0)).mask = (opcodeRow (.pinnew 0 false 0 0)).value := by
  decide

/-- `State.reset` with a command word that does not decode on port 0. -/
def illegalReset : State := withProg State.reset [⟨0x10100003, 0⟩]

theorem witness_IllegalCommandsAreTheSixCases :
    illegalReset.ports[illegalReset.turn.port]? = some ⟨[⟨0x10100003, 0⟩], 0, none, ⟨.ok, 0⟩⟩ ∧
    ([⟨0x10100003, 0⟩] : List Command)[0]? = some ⟨0x10100003, 0⟩ ∧
    decode illegalReset.cfg ⟨0x10100003, 0⟩ = .error .handleRange := by decide

/-! ### The step, responses and the parts of the state -/

/-- `State.reset` with MAPOPEN on port 0. -/
def openReset : State := withProg State.reset [⟨0x01000000, 0⟩]

theorem witness_StepRunsTheDecodedInstruction :
    (State.reset.turns = [] ∧ State.reset.nextTurn = some ⟨1, false, true⟩ ∧
      ∃ p, State.reset.ports[1]? = some p ∧ p.flight = none ∧ p.prog.length ≤ p.idx) ∧
    (openReset.turns = [.port ⟨0, false, true⟩, .port ⟨0, false, true⟩] ∧
      openReset.nextTurn = some ⟨0, false, true⟩ ∧
      openReset.ports[0]? = some ⟨[⟨0x01000000, 0⟩], 0, none, ⟨.ok, 0⟩⟩ ∧
      ([⟨0x01000000, 0⟩] : List Command)[0]? = some ⟨0x01000000, 0⟩ ∧
      decode openReset.cfg ⟨0x01000000, 0⟩ = .ok .mapopen) ∧
    (locked.turns = [] ∧ locked.nextTurn = some ⟨1, false, true⟩ ∧
      ∃ p, locked.ports[1]? = some p ∧ p.flight = some ⟨.commit 1, 9, Temps.none⟩) ∧
    (({ demo with turns := [.port ⟨2, true, false⟩] } : State).nextTurn = some ⟨2, true, false⟩ ∧
      demo.ports.length ≤ 2) ∧
    (({ demo with turns := [.host (.startClock 3)] } : State).turns = .host (.startClock 3) :: []) :=
  ⟨⟨rfl, rfl, _, rfl, rfl, by decide⟩, ⟨rfl, rfl, by decide, rfl, by decide⟩, ⟨rfl, rfl, _, rfl, rfl⟩,
    ⟨rfl, by decide⟩, rfl⟩

theorem witness_PortWordsMeanWhatTheySay :
    (State.reset.ports[State.reset.turn.port]? = some (Port.start []) ∧ (Port.start []).flight = none) ∧
    (∃ p, waitingReset.ports[waitingReset.turn.port]? = some p ∧
      p.flight = some ⟨.commit 1, 1, Temps.none⟩) := ⟨by decide, _, rfl, rfl⟩

theorem witness_PartsReadBackWhatWasWritten :
    (15#8).toNat < demo.pins.length ∧ (0#8) ≠ 15#8 ∧ (1 : Nat) < demo.colls.length ∧ (0 : Nat) ≠ 1 ∧
    (0 : BankId) ≠ 3 := by decide

theorem witness_MicroStepEndsOrStaysInFlight :
    (demo.turn.port < demo.ports.length ∧ (∃ t, exec (.getpend 9) demo = .next t) ∧
      (∃ t, exec (.setactlow 0 true) demo = .next t)) ∧
    ((∃ t, Host.Core.run Sys2Proof.core 2 openReset = .next t) ∧ responses 0 2 openReset = [⟨.ok, 0⟩] ∧
      responses 1 2 openReset = [] ∧ ∃ p, openReset.ports[0]? = some p ∧ p.idx = 0) :=
  ⟨⟨by decide, ⟨_, rfl⟩, ⟨_, rfl⟩⟩, ⟨_, rfl⟩, by decide, by decide, _, rfl, rfl⟩

/-! ### Operands -/

theorem witness_PinAddressIsInjective :
    pinBank 127 = pinBank 127 ∧ pinBit 127 = pinBit 127 ∧ pinBank 32 = pinBank 63 ∧ pinBit 31 = pinBit 127 := by
  decide

theorem witness_PolarityIsExclusiveOr : (demo.pin 0).al = false ∧ (demo.pin 7).al = true := by decide

/-! ### Register Bank Map commands -/

/-- `demo` with an unopened map and identification strings that do not match. -/
def unmatched : State := { withId demo wrongId with map := .unopened }

/-- `demo` after MAPCLOSE. -/
def closedDemo : State := { demo with map := .closed }

theorem witness_MapopenAnswersByMapState :
    (State.reset.map = .unopened ∧ EveryBankIdentified State.reset.cfg) ∧
    (unmatched.map = .unopened ∧ ¬EveryBankIdentified unmatched.cfg) ∧ demo.map = .opened ∧
    ({ demo with map := .failed } : State).map = .failed ∧
    ({ demo with map := .closed } : State).map = .closed :=
  ⟨⟨rfl, standard_identified⟩, ⟨rfl, wrongId_not_identified⟩, rfl, rfl, rfl⟩

theorem witness_MapcloseAlwaysAnswersOk : demo.map = .opened ∧ State.reset.map ≠ .opened := by decide

theorem witness_RegrdAnswersTheRegister : demo.Ready ∧ demo.Accessible 0 ∧ demo.Accessible 3 :=
  ⟨demo_ready, demo_accessible 0, demo_accessible 3⟩

theorem witness_RegwrWritesTheRegister : demo.Ready ∧ demo.Accessible 0 ∧ demo.Accessible 3 :=
  ⟨demo_ready, demo_accessible 0, demo_accessible 3⟩

theorem witness_FirstUseOpensTheMap :
    State.reset.Ready ∧ unmatched.Ready ∧ demo.Ready ∧ ({ demo with map := .failed } : State).Ready ∧
    ({ demo with map := .closed } : State).Ready ∧
    (∃ b r, Instr.regrd 3 .oe = .regrd b r) ∧ (∃ b r w, Instr.regwr 0 .dataIn 0 = .regwr b r w) ∧
    (∃ h ic c n, Instr.pinnew 15 true 1 127 = .pinnew h ic c n ∧ n.toNat ≤ 127) ∧
    (State.reset.map = .unopened ∧ EveryBankIdentified State.reset.cfg) ∧ demo.map = .opened ∧
    (unmatched.map = .unopened ∧ ¬EveryBankIdentified unmatched.cfg) ∧
    ((State.reset.coll (1#8).toNat).lock = .free ∧ (unmatched.coll (1#8).toNat).lock = .free ∧
      (closedDemo.coll (1#8).toNat).lock = .free ∧ closedDemo.map = .closed) :=
  ⟨⟨by decide, by decide⟩, ⟨by decide, by decide⟩, demo_ready, ⟨by decide, by decide⟩,
    ⟨by decide, by decide⟩, ⟨_, _, rfl⟩, ⟨_, _, _, rfl⟩, ⟨_, _, _, _, rfl, by decide⟩,
    ⟨rfl, standard_identified⟩, rfl, ⟨rfl, wrongId_not_identified⟩, by decide⟩

/-! ### Direct Pin and capability commands -/

theorem witness_PinnewBindsAfterExport :
    demo.Ready ∧ 127 < (128#8).toNat ∧
    ((127#8).toNat ≤ 127 ∧ (3 : BankId).val = (127#8).toNat / 32 ∧ demo.map = .opened ∧
      demo.turn.exportOk = true) ∧
    (({ demo with turn := ⟨0, false, false⟩ } : State).Ready ∧
      ({ demo with turn := ⟨0, false, false⟩ } : State).turn.exportOk = false) :=
  ⟨demo_ready, by decide, by decide, ⟨by decide, by decide⟩, rfl⟩

theorem witness_SetstateDrivesAFreePin :
    (demo.Ready ∧ (demo.pin 5).valid = true ∧ (demo.pin 5).ic = false ∧ demo.Accessible (demo.pin 5).bank) ∧
    ((waiting (.setstate 5 true)).Ready ∧ (waiting (.setstate 5 true)).Accessible 3) :=
  ⟨⟨demo_ready, rfl, rfl, demo_accessible _⟩, waiting_ready _, waiting_accessible _ 3⟩

theorem witness_SetstateBuffersOrDrives :
    (demoRec.Ready ∧ (demoRec.pin 3).valid = true ∧ (demoRec.pin 3).ic = true ∧
      (demoRec.coll (demoRec.pin 3).coll.toNat).lock = .free ∧
      (demoRec.coll (demoRec.pin 3).coll.toNat).recording = true ∧ (true ^^ (demoRec.pin 3).al) = true ∧
      (false ^^ (demoRec.pin 3).al) = false) ∧
    (demo.Ready ∧ (demo.pin 4).valid = true ∧ (demo.pin 4).ic = true ∧
      (demo.coll (demo.pin 4).coll.toNat).lock = .free ∧
      (demo.coll (demo.pin 4).coll.toNat).recording = false ∧ demo.Accessible (demo.pin 4).bank) ∧
    ((waiting (.setstate 4 true)).Ready ∧ (waiting (.setstate 4 true)).Accessible 1) :=
  ⟨⟨demoRec_ready, by decide⟩, ⟨demo_ready, rfl, rfl, rfl, rfl, demo_accessible _⟩,
    waiting_ready _, waiting_accessible _ 1⟩

theorem demo_pin6_out : demo.isOut (demo.pin 6) := by unfold State.isOut; decide

theorem demo_pin5_in : ¬demo.isOut (demo.pin 5) := by unfold State.isOut; decide

theorem witness_SetimmDrivesAtOnce :
    (demo.pin 6).valid = true ∧ demo.Accessible (demo.pin 6).bank ∧ demo.isOut (demo.pin 6) ∧
    (127 : BitVec 7) ≠ (demo.pin 6).num := ⟨rfl, demo_accessible _, demo_pin6_out, by decide⟩

theorem witness_GetstateAnswersTheLogicalLevel :
    demo.Ready ∧ ((demo.pin 5).valid = true ∧ demo.Accessible (demo.pin 5).bank) ∧
    ((demo.pin 7).valid = true ∧ demo.Accessible (demo.pin 7).bank) :=
  ⟨demo_ready, ⟨rfl, demo_accessible _⟩, rfl, demo_accessible _⟩

theorem witness_ChkdirAnswersTheDirection :
    ((demo.pin 6).valid = true ∧ demo.Accessible (demo.pin 6).bank ∧ demo.isOut (demo.pin 6)) ∧
    ((demo.pin 5).valid = true ∧ demo.Accessible (demo.pin 5).bank ∧ ¬demo.isOut (demo.pin 5)) :=
  ⟨⟨rfl, demo_accessible _, demo_pin6_out⟩, rfl, demo_accessible _, demo_pin5_in⟩

theorem witness_SetactlowStoresFlagAndInvertsLevel :
    (demo.Ready ∧ (demo.pin 7).valid = true ∧ demo.Accessible (demo.pin 7).bank ∧ (demo.pin 7).al = true ∧
      (demo.pin 7).al ≠ false) ∧
    ((waiting (.setactlow 7 true)).Ready ∧ (waiting (.setactlow 7 true)).Accessible 1) :=
  ⟨⟨demo_ready, rfl, demo_accessible _, rfl, by decide⟩, waiting_ready _, waiting_accessible _ 1⟩

theorem witness_SetdebWritesOneBitOfAnInPin :
    demo.Ready ∧ ((demo.pin 6).valid = true ∧ demo.Accessible (demo.pin 6).bank ∧ demo.isOut (demo.pin 6)) ∧
    ((demo.pin 5).valid = true ∧ demo.Accessible (demo.pin 5).bank ∧ ¬demo.isOut (demo.pin 5)) :=
  ⟨demo_ready, ⟨rfl, demo_accessible _, demo_pin6_out⟩, rfl, demo_accessible _, demo_pin5_in⟩

/-! ### Batch commands -/

theorem witness_BeginStartsRecording :
    (demo.coll (1#8).toNat).lock = .free ∧ (demoRec.coll (0#8).toNat).lock = .free := by decide

/-- `demo` with a COMMIT of Collection 1 in flight at micro-step `n`. -/
def committing (n : Nat) : State := demo.enter (.commit 1) n Temps.none

theorem committing_accessible (n : Nat) (b : BankId) : (committing n).Accessible b :=
  ⟨rfl, (demo_accessible b).clocked, rfl⟩

theorem witness_CommitMicroSteps :
    demo.turn.port < demo.ports.length ∧
    (demo.mstep = 1 ∧ (demo.coll (1#8).toNat).lock = .free ∧ demo.map = .opened) ∧
    ((committing 2).turn.port < (committing 2).ports.length ∧ (committing 2).mstep = 0 + 2 ∧
      (committing 2).cfg.commitOrder[0]? = some (0, .set) ∧ (committing 2).Accessible 0) ∧
    ((committing 9).mstep = 7 + 2 ∧ (committing 9).cfg.commitOrder[7]? = some (3, .clear) ∧
      (committing 9).Accessible 3) ∧
    (committing 10).mstep = (committing 10).cfg.commitOrder.length + 2 :=
  ⟨by decide, by decide, ⟨by decide, by decide, by decide, committing_accessible 2 0⟩,
    ⟨by decide, by decide, committing_accessible 9 3⟩, by decide⟩

theorem demoRec_accessible (b : BankId) : demoRec.Accessible b :=
  ⟨rfl, (demo_accessible b).clocked, rfl⟩

theorem witness_CommitFlushesTheMasks :
    demoRec.Ready ∧ demoRec.cfg.commitOrderLegal ∧ MasksConsistent demoRec ∧
    (demoRec.coll (0#8).toNat).lock = .free ∧ (∀ b, demoRec.Accessible b) :=
  ⟨demoRec_ready, by decide, demoRec_masks, by decide, demoRec_accessible⟩

theorem witness_GetpendAnswersThePendingState :
    ((demo.pin 0).valid = true ∧ (demo.pin 0).ic = false) ∧
    ((demoRec.pin 3).valid = true ∧ (demoRec.pin 3).ic = true ∧
      (demoRec.coll (demoRec.pin 3).coll.toNat).lock = .free ∧ (recording.pset.get (demoRec.pin 3).bank).getLsbD
        (demoRec.pin 3).bit = false ∧ (recording.pclr.get (demoRec.pin 3).bank).getLsbD (demoRec.pin 3).bit = false) ∧
    ((demoRec.pin 2).valid = true ∧ (demoRec.pin 2).ic = true ∧
      demoRec.coll (demoRec.pin 2).coll.toNat = recording ∧
      (recording.pclr.get (demoRec.pin 2).bank).getLsbD (demoRec.pin 2).bit = true) := by decide

theorem witness_TransactionBuffersUntilCommit :
    demo.Ready ∧ demo.cfg.commitOrderLegal ∧ MasksConsistent demo ∧ (0#8).toNat < demo.colls.length ∧
    (demo.coll (0#8).toNat).lock = .free ∧ (∀ b, demo.Accessible b) ∧
    ((demo.pin 1).valid = true ∧ (demo.pin 1).ic = true ∧ (demo.pin 1).coll.toNat = (0#8).toNat) ∧
    ((demo.pin 2).valid = true ∧ (demo.pin 2).ic = true ∧ (demo.pin 2).coll.toNat = (0#8).toNat) ∧
    (demo.pin 1).num ≠ (demo.pin 2).num ∧ demo.isOut (demo.pin 1) ∧ demo.isOut (demo.pin 2) :=
  ⟨demo_ready, by decide, demo_masks, by decide, by decide, demo_accessible, by decide, by decide, by decide,
    by unfold State.isOut; decide, by unfold State.isOut; decide⟩

/-! ### Properties of the pin commands -/

theorem witness_SetThenGetRoundTrip :
    demo.Ready ∧
    ((demo.pin 7).valid = true ∧ demo.Accessible (demo.pin 7).bank ∧ demo.isOut (demo.pin 7) ∧
      (demo.pin 7).ic = false) ∧
    ((demo.pin 4).valid = true ∧ demo.Accessible (demo.pin 4).bank ∧ demo.isOut (demo.pin 4) ∧
      (demo.pin 4).ic = true ∧ (demo.coll (demo.pin 4).coll.toNat).lock = .free ∧
      (demo.coll (demo.pin 4).coll.toNat).recording = false) :=
  ⟨demo_ready, ⟨rfl, demo_accessible _, by unfold State.isOut; decide, rfl⟩,
    rfl, demo_accessible _, by unfold State.isOut; decide, rfl, rfl, rfl⟩

theorem witness_ActiveLowInvariance :
    demo.Ready ∧
    ((6#8).toNat < demo.pins.length ∧ (demo.pin 6).valid = true ∧ demo.Accessible (demo.pin 6).bank ∧
      demo.isOut (demo.pin 6)) ∧
    ((5#8).toNat < demo.pins.length ∧ (demo.pin 5).valid = true ∧ demo.Accessible (demo.pin 5).bank ∧
      ¬demo.isOut (demo.pin 5) ∧ (demo.pin 5).al ≠ true) :=
  ⟨demo_ready, ⟨by decide, rfl, demo_accessible _, demo_pin6_out⟩,
    by decide, rfl, demo_accessible _, demo_pin5_in, by decide⟩

/-- `demo` with a command of port 1 in flight at micro-step `n`. -/
def secondPort (i : Instr) (n : Nat) (u : Temps) : State :=
  { demo with ports := [Port.start [], ⟨[], 0, some ⟨i, n, u⟩, ⟨.ok, 0⟩⟩] }

/-- The temporaries of SETSTATE on the idle path of a pin with number 33, driven high. -/
def idlePath : Temps := { Temps.none with bank := 1, mask := 0x00000002, phys := true }

theorem witness_SingleBitWritesCommute :
    (0 < demo.ports.length ∧ 1 < demo.ports.length ∧ (0 : Nat) ≠ 1 ∧ demo.map = .opened ∧
      (demo.bank (pinBank 40)).clkEn = true ∧ (demo.bank (pinBank 127)).clkEn = true) ∧
    (physWrite (.setimm 5 true) { demo with turn := ⟨0, false, true⟩ } =
        some (pinBank 127, pinMask 127, true) ∧
      physWrite (.setstate 6 false) { demo with turn := ⟨1, false, true⟩ } =
        some (pinBank 96, pinMask 96, false) ∧ (127 : BitVec 7) ≠ 96) ∧
    (physWrite (.setimm 0 true)
        { secondPort (.setactlow 7 true) 4 Temps.none with turn := ⟨0, false, true⟩ } =
        some (pinBank 40, pinMask 40, true) ∧
      physWrite (.setactlow 7 true)
        { secondPort (.setactlow 7 true) 4 Temps.none with turn := ⟨1, false, true⟩ } =
        some (pinBank 40, pinMask 40, true)) ∧
    (physWrite (.setimm 4 true)
        { secondPort (.setstate 4 false) 2 idlePath with turn := ⟨0, false, true⟩ } =
        some (pinBank 33, pinMask 33, false) ∧
      physWrite (.setstate 4 false)
        { secondPort (.setstate 4 false) 2 idlePath with turn := ⟨1, false, true⟩ } =
        some (pinBank 33, pinMask 33, true)) := by decide

theorem witness_GetstateUsesTheFirstDirection :
    demo.Ready ∧ (demo.pin 5).valid = true ∧ demo.Accessible (demo.pin 5).bank :=
  ⟨demo_ready, rfl, demo_accessible _⟩

/-- `demo` with SETDEB of two IN pins of bank 3 on the two ports, queued step against step. -/
def twoSetdebs : State :=
  { demo with
    ports := [Port.start [⟨0x16050001, 0⟩], Port.start [⟨0x16080001, 0⟩]]
    turns := [.port ⟨0, false, true⟩, .port ⟨1, false, true⟩, .port ⟨0, false, true⟩, .port ⟨1, false, true⟩,
      .port ⟨0, false, true⟩, .port ⟨1, false, true⟩] }

theorem witness_InterleavedSetdebLosesAnUpdate :
    twoSetdebs.ports[0]? = some (Port.start [⟨0x16050001, 0⟩]) ∧
    twoSetdebs.ports[1]? = some (Port.start [⟨0x16080001, 0⟩]) ∧
    decode twoSetdebs.cfg ⟨0x16050001, 0⟩ = .ok (.setdeb 5 true) ∧
    decode twoSetdebs.cfg ⟨0x16080001, 0⟩ = .ok (.setdeb 8 true) ∧ twoSetdebs.map = .opened ∧
    (twoSetdebs.pin 5).valid = true ∧ (twoSetdebs.pin 8).valid = true ∧
    ¬twoSetdebs.isOut (twoSetdebs.pin 5) ∧ ¬twoSetdebs.isOut (twoSetdebs.pin 8) ∧
    (twoSetdebs.pin 5).bank = (twoSetdebs.pin 8).bank ∧
    (twoSetdebs.bank (twoSetdebs.pin 5).bank).clkEn = true := by unfold State.isOut; decide

theorem witness_ReadModifyWriteMerges :
    demo.Ready ∧ demo.Accessible 2 ∧ (Reg.debTime = .dataOut ∨ Reg.debTime = .debEn ∨ Reg.debTime = .debTime ∨
      Reg.debTime = .oe) := ⟨demo_ready, demo_accessible 2, by decide⟩

/-! ### Errors, hang, undefined -/

theorem witness_HandleCheckComesFirst :
    (handleOf (.getpend 15) = some 15 ∧ demo.mstep = 1 ∧ (demo.pin 15).valid = false) ∧
    (handleOf (.getpend 15) = some 15 ∧ decode Config.standard ⟨0x220F0000, 0⟩ = .ok (.getpend 15)) := by decide

theorem witness_FaultExactlyWhenUndefined :
    (nextAccess (.chkdir 6) closedDemo = some 3 ∧ closedDemo.map ≠ .opened) ∧
    (needsMap (.pinnew 15 true 1 127) closedDemo ∧ closedDemo.map = .closed) :=
  ⟨by decide, ⟨by decide, by decide, by decide⟩, rfl⟩

/-- `demo` with the clock of bank 3 off. -/
def unclocked : State := demo.setBank 3 { banks.b3 with clkEn := false }

theorem witness_AccessWithoutClockHangs :
    nextAccess (.setimm 6 true) unclocked = some 3 ∧ unclocked.map = .opened ∧
    (unclocked.bank 3).clkEn = false := by decide

/-- `s` with a bus error drawn for its next access. -/
def failing (s : State) : State := { s with turn := ⟨0, true, true⟩ }

theorem witness_BusErrorEndsTheCommand :
    (nextAccess (.setimm 6 true) (failing demo) = some 3 ∧ (failing demo).map = .opened ∧
      ((failing demo).bank 3).clkEn = true ∧ (failing demo).turn.busError = true ∧
      ∀ c, Instr.setimm 6 true ≠ .commit c) ∧
    (nextAccess (.commit 1) (failing (committing 9)) = some 3 ∧ (failing (committing 9)).map = .opened ∧
      ((failing (committing 9)).bank 3).clkEn = true ∧ (failing (committing 9)).turn.busError = true) :=
  ⟨⟨by decide, rfl, rfl, rfl, by simp⟩, by decide⟩

theorem witness_RefusalExactlyForDataIn :
    (demo.enter (.regwr 3 .dataIn 1) 2 Temps.none).mstep = 2 ∧
    (demo.enter (.regwr 3 .dataIn 1) 2 Temps.none).Accessible 3 :=
  ⟨by decide, rfl, (demo_accessible 3).clocked, rfl⟩

theorem witness_LockedMicroStepsWait :
    (locked.coll (1#8).toNat).lock = .held 1 ∧ locked.mstep = 1 ∧ (locked.pin 4).valid = true ∧
    (locked.pin 4).ic = true ∧ (locked.coll (locked.pin 4).coll.toNat).lock = .held 1 := by decide

/-! ### Frames: each command answers a next state somewhere -/

theorem witness_ReadingCommandsChangeOnlyThePort :
    (∃ t, exec (.getstate 5) demo = .next t) ∧ (∃ t, exec (.chkdir 5) demo = .next t) ∧
    (∃ t, exec (.getpend 3) demoRec = .next t) ∧
    (∃ t, exec (.regrd 3 .set) (demo.enter (.regrd 3 .set) 2 Temps.none) = .next t) ∧
    (∃ t, exec (.regrd 3 .oe) State.reset = .next t) :=
  ⟨⟨_, rfl⟩, ⟨_, rfl⟩, ⟨_, rfl⟩, ⟨_, rfl⟩, ⟨_, rfl⟩⟩

theorem witness_RegwrChangesOnlyItsRegister :
    (∃ t, exec (.regwr 3 .oe 0) (demo.enter (.regwr 3 .oe 0) 2 Temps.none) = .next t) ∧
    busDecode demo.cfg (0x481AE000 + 0x134 + 4) ≠ some (3, .oe) ∧
    busDecode demo.cfg (0x481AE000 + 0x134 + 4) ≠ some (3, .dataOut) ∧
    ((∃ t, exec (.regwr 3 .oe 0) State.reset = .next t) ∧ nextAccess (.regwr 3 .oe 0) State.reset = none) :=
  ⟨⟨_, rfl⟩, by decide, by decide, ⟨_, rfl⟩, by decide⟩

theorem witness_SetCommandsChangeOnlyTheirBits :
    (∃ t, exec (.setimm 4 true) demo = .next t) ∧
    (∃ t, exec (.setstate 1 true) demoRec = .next t) ∧ demoRec.mstep ≠ 2 ∧
    (∃ t, exec (.setstate 4 true) (demo.enter (.setstate 4 true) 2
      { Temps.none with bank := 1, mask := 0x2 }) = .next t) ∧
    (demo.enter (.setstate 4 true) 2 { Temps.none with bank := 1, mask := 0x2 }).mstep = 2 ∧
    nextAccess (.setstate 1 true) demoRec = none :=
  ⟨⟨_, rfl⟩, ⟨_, rfl⟩, by decide, ⟨_, rfl⟩, by decide, by decide⟩

theorem witness_SetactlowChangesOnlyFlagAndLatchBit :
    (∃ t, exec (.setactlow 6 true) (demo.enter (.setactlow 6 true) 3 Temps.none) = .next t) ∧
    (∃ t, exec (.setactlow 6 true) (demo.enter (.setactlow 6 true) 4 Temps.none) = .next t) :=
  ⟨⟨_, rfl⟩, ⟨_, rfl⟩⟩

theorem witness_SetdebChangesOnlyDebounceEnable :
    (∃ t, exec (.setdeb 5 true) demo = .next t) ∧ demo.mstep ≠ 2 ∧ demo.mstep ≠ 3 ∧
    (∃ t, exec (.setdeb 5 true) (demo.enter (.setdeb 5 true) 3
      { Temps.none with bank := 3, mask := 0x80000000, word := 0x10 }) = .next t) ∧
    (demo.enter (.setdeb 5 true) 3 { Temps.none with bank := 3, mask := 0x80000000, word := 0x10 }).mstep = 3 :=
  ⟨⟨_, rfl⟩, by decide, by decide, ⟨_, rfl⟩, by decide⟩

theorem witness_BatchCommandsChangeOnlyTheirCollection :
    (∃ t, exec (.beginTx 1) demo = .next t) ∧ (∃ t, exec (.commit 1) State.reset = .next t) ∧
    (∃ t, exec (.commit 1) (committing 9) = .next t) ∧
    (committing 9).mstep < (committing 9).cfg.commitOrder.length + 2 ∧
    (∃ t, exec (.commit 1) (committing 10) = .next t) ∧ nextAccess (.commit 1) (committing 10) = none ∧
    nextAccess (.commit 1) State.reset = none ∧
    ((committing 9).mstep = 7 + 2 ∧ (committing 9).cfg.commitOrder[7]? = some (3, .clear) ∧
      (committing 9).Accessible 3) :=
  ⟨⟨_, rfl⟩, ⟨_, rfl⟩, ⟨_, rfl⟩, by decide, ⟨_, rfl⟩, by decide, by decide, by decide, by decide,
    committing_accessible 9 3⟩

theorem witness_PinnewChangesOnlySlotMapAndClock :
    (∃ t, exec (.pinnew 15 true 1 127) State.reset = .next t) ∧
    (∃ t, exec (.pinnew 15 true 1 127) (demo.enter (.pinnew 15 true 1 127) 2 Temps.none) = .next t) ∧
    (∃ t, exec (.pinnew 15 true 1 127) (demo.enter (.pinnew 15 true 1 127) 3 Temps.none) = .next t) :=
  ⟨⟨_, rfl⟩, ⟨_, rfl⟩, ⟨_, rfl⟩⟩

theorem witness_MapCommandsChangeOnlyTheMap :
    (∃ t, exec .mapopen State.reset = .next t) ∧ (∃ t, exec .mapclose demo = .next t) :=
  ⟨⟨_, rfl⟩, ⟨_, rfl⟩⟩

/-! ### Whole-machine rules and invariants -/

theorem witness_StepKeepsMasksConsistent :
    MasksConsistent (withProg demo [⟨0x11010001, 0⟩]) ∧
    ∃ t, step (withProg demo [⟨0x11010001, 0⟩]) = .next t := ⟨demo_masks, _, rfl⟩

theorem witness_StepKeepsLockMatchesCommit :
    LockMatchesCommit locked ∧ ∃ t, step locked = .next t := ⟨locked_matches, _, rfl⟩

theorem witness_StepKeepsLiveOnlyIfOpened :
    (LiveOnlyIfOpened demo ∧ ∃ t, step demo = .next t) ∧
    (LiveOnlyIfOpened waitingReset ∧ ∃ t, step waitingReset = .next t) :=
  ⟨⟨demo_live, _, rfl⟩, waitingReset_live, _, rfl⟩

theorem witness_StepKeepsWellShaped : WellShaped locked ∧ ∃ t, step locked = .next t :=
  ⟨locked_shaped, _, rfl⟩

theorem witness_ResetLeavesTheStatedValues :
    ∃ p, locked.ports[1]? = some p ∧ Port.start [] ∈ State.reset.ports := ⟨_, rfl, by decide⟩

theorem witness_MapIsOpenedAtMostOnce :
    ((∃ t, exec .mapopen State.reset = .next t) ∧ (∃ t, exec (.commit 1) State.reset = .next t) ∧
      needsMap (.commit 1) State.reset ∧ (∃ t, exec .mapclose State.reset = .next t) ∧
      ¬(Instr.mapclose = .mapopen ∨ needsMap .mapclose State.reset)) ∧
    (openReset.map = .unopened ∧ EveryBankIdentified openReset.cfg ∧
      ∃ t, Host.Core.run Sys2Proof.core 2 openReset = .next t) ∧
    (unmatched.map = .unopened ∧ ¬EveryBankIdentified unmatched.cfg ∧
      ∃ t, Host.Core.run Sys2Proof.core 2 (withProg unmatched [⟨0x01000000, 0⟩]) = .next t) ∧
    (demo.map = .opened ∧ ∃ t, Host.Core.run Sys2Proof.core 1 demo = .next t) ∧
    (closedDemo.map = .closed ∧ ∃ t, Host.Core.run Sys2Proof.core 1 closedDemo = .next t) ∧
    (({ demo with map := .failed } : State).map = .failed ∧
      ∃ t, Host.Core.run Sys2Proof.core 1 { demo with map := .failed } = .next t) :=
  ⟨⟨⟨_, rfl⟩, ⟨_, rfl⟩, ⟨by decide, by decide⟩, ⟨_, rfl⟩, by simp [needsMap]⟩,
    ⟨rfl, standard_identified, _, rfl⟩, ⟨rfl, wrongId_not_identified, _, rfl⟩, ⟨rfl, _, rfl⟩, ⟨rfl, _, rfl⟩,
    rfl, _, rfl⟩

/-- `locked` with a turn of port 0 queued. -/
def lockedFirst : State := { locked with turns := [.port ⟨0, false, true⟩] }

theorem witness_LockedCollectionIsUntouchedByOthers :
    LockMatchesCommit lockedFirst ∧ 1 < lockedFirst.colls.length ∧ (lockedFirst.coll 1).lock = .held 1 ∧
    lockedFirst.nextPort ≠ some 1 ∧ ∃ t, step lockedFirst = .next t :=
  ⟨locked_matches, by decide, by decide, by decide, _, rfl⟩

theorem witness_StepKeepsParametersAndClocks :
    (∃ t, step { demo with turns := [.host (.drivePads 3 0)] } = .next t) ∧
    (∃ t, step lockedFirst = .next t) ∧ (demo.bank 3).clkEn = true ∧ lockedFirst.nextPort ≠ some 1 :=
  ⟨⟨_, rfl⟩, ⟨_, rfl⟩, by decide, by decide⟩

theorem witness_EveryPortComesToItsTurn :
    0 < lockedFirst.ports.length ∧ 1 < lockedFirst.ports.length ∧
    (∃ t, Host.Core.run Sys2Proof.core 2 lockedFirst = .next t ∧ t.nextPort = some 0) :=
  ⟨by decide, by decide, _, rfl, by decide⟩

theorem witness_PageBytesAreLittleEndian : demo.cfg.layoutLegal ∧ 3 < 4 := by decide

end Sys2Proof.Tests
end

section
/-! PROOFS. What the decoder guarantees of an instruction: it is well formed under the parameters. -/

namespace Sys2Proof

/-- Rule R59 item 4 of an instruction: a pin created outside a Collection names Collection 0. -/
def Instr.CollectionNeedsIc : Instr → Prop
  | .pinnew _ ic coll _ => ic = false → coll = 0
  | _ => True

/-! ### What each format can answer -/

theorem formatN_ok {w : Word} {i j : Instr} (h : formatN w i = .ok j) : j = i := by
  unfold formatN at h
  split at h <;> cases h
  rfl

theorem formatR_ok {w : Word} {mk : BankId → Reg → Instr} {j : Instr} (h : formatR w mk = .ok j) :
    ∃ b r, j = mk b r := by
  unfold formatR at h
  split at h
  · split at h <;> cases h
    exact ⟨_, _, rfl⟩
  · cases h

theorem formatP_ok {w : Word} {j : Instr} (h : formatP w = .ok j) : j.CollectionNeedsIc := by
  unfold formatP at h
  split at h
  · cases h
  next hlegal =>
    cases h
    exact fun hic => by_contra fun hcoll => hlegal ⟨hic, hcoll⟩

theorem formatHV_ok {w : Word} {mk : BitVec 8 → Bool → Instr} {j : Instr} (h : formatHV w mk = .ok j) :
    ∃ x v, j = mk x v := by
  unfold formatHV at h
  split at h <;> cases h
  exact ⟨_, _, rfl⟩

theorem formatHC_ok {w : Word} {mk : BitVec 8 → Instr} {j : Instr} (h : formatHC w mk = .ok j) :
    ∃ x, j = mk x := by
  unfold formatHC at h
  split at h <;> cases h
  exact ⟨_, rfl⟩

/-! ### From the decoder to well-formedness -/

/-- Only format P makes a PINNEW, and it tests the Collection. -/
theorem decodeShape_collectionNeedsIc {c : Command} {i : Instr} (h : decodeShape c = .ok i) :
    i.CollectionNeedsIc := by
  unfold decodeShape at h
  split at h
  case h_1 | h_2 => cases formatN_ok h; trivial
  case h_3 | h_4 => obtain ⟨_, _, rfl⟩ := formatR_ok h; trivial
  case h_5 => exact formatP_ok h
  case h_6 | h_7 | h_10 | h_11 => obtain ⟨_, _, rfl⟩ := formatHV_ok h; trivial
  case h_8 | h_9 | h_12 | h_13 | h_14 => obtain ⟨_, rfl⟩ := formatHC_ok h; trivial
  case h_15 => cases h

/-- A command decodes when both halves of rule R63 pass: the shape, then the ranges. -/
theorem decode_ok {cfg : Config} {c : Command} {i : Instr} (h : decode cfg c = .ok i) :
    decodeShape c = .ok i ∧ rangeError cfg i = none := by
  unfold decode at h
  split at h
  · cases h
  · split at h
    · cases h
    · cases h
      exact ⟨by assumption, by assumption⟩

theorem handleError_none {cfg : Config} {h : BitVec 8} : handleError cfg h = none ↔ h.toNat < cfg.nh := by
  simp [handleError]

theorem collectionError_none {cfg : Config} {c : Nat} : collectionError cfg c = none ↔ c < cfg.ncoll := by
  simp [collectionError]

/-- The range test and the reserved Collection value are all that `wellFormed` asks. -/
theorem wellFormed_of_rangeError {cfg : Config} {i : Instr} (hr : rangeError cfg i = none)
    (hc : i.CollectionNeedsIc) : i.wellFormed cfg = true := by
  cases i with
  | mapopen | mapclose | regrd | regwr => rfl
  | pinnew h ic coll num =>
    obtain ⟨hh, hcoll⟩ := Option.or_eq_none_iff.1 hr
    cases ic with
    | false => simpa [Instr.wellFormed] using ⟨handleError_none.1 hh, hc rfl⟩
    | true => simpa [Instr.wellFormed] using ⟨handleError_none.1 hh, collectionError_none.1 hcoll⟩
  | setstate | setimm | getstate | chkdir | setactlow | setdeb | getpend =>
    exact decide_eq_true (handleError_none.1 hr)
  | beginTx | commit => exact decide_eq_true (collectionError_none.1 hr)

/-- A decoded instruction is well formed (R57, R59). -/
theorem decode_wellFormed {cfg : Config} {c : Command} {i : Instr} (h : decode cfg c = .ok i) :
    i.wellFormed cfg = true := by
  obtain ⟨hshape, hrange⟩ := decode_ok h
  exact wellFormed_of_rangeError hrange (decodeShape_collectionNeedsIc hshape)

end Sys2Proof
end

section
/-! PROOFS. `WellShaped` is an invariant. The proof goes through `Running i s`: a well-shaped state in which the
port of the turn stands at a micro-step of `i`, the command of its list. Updates of the parts keep `Running`; a
response, a position and a wait lead from it to a well-shaped state; so each shared operation has one rule, and
each instruction's proof follows its micro-steps. -/

namespace Sys2Proof.Machine

theorem port_of_getElem? {s : State} {p : Port} (h : s.ports[s.turn.port]? = some p) : s.port = p := by
  simp [State.port, h]

/-! ### Updates that keep the shape -/

/-- The shape is not about the map, the banks, the turns or the draws, nor about what the Collections hold. -/
theorem WellShaped.congr {s u : State} (w : WellShaped s) (hcfg : u.cfg = s.cfg) (hports : u.ports = s.ports)
    (hpins : u.pins = s.pins) (hcolls : u.colls.length = s.colls.length) : WellShaped u where
  legal_cfg := hcfg ▸ w.legal_cfg
  slots := by rw [hpins, hcfg, w.slots]
  collections := by rw [hcolls, hcfg, w.collections]
  requesters := by rw [hports, hcfg, w.requesters]
  pins_legal h := by rw [State.pin, hpins, hcfg]; exact w.pins_legal h
  flights_legal := by rw [hports, hcfg]; exact w.flights_legal
  ports_legal := by rw [hports, hcfg]; exact w.ports_legal

theorem WellShaped.setPin {s : State} (w : WellShaped s) (h : BitVec 8) {p : Pin} (hp : p.legal s.cfg) :
    WellShaped (s.setPin h p) where
  legal_cfg := w.legal_cfg
  slots := by simpa using w.slots
  collections := w.collections
  requesters := w.requesters
  pins_legal k := by
    rw [setPin_pin]
    split
    · exact hp
    · exact w.pins_legal k
  flights_legal := w.flights_legal
  ports_legal := w.ports_legal

theorem WellShaped.setPort {s : State} (w : WellShaped s) {q : Port} (hq : q.legal s.cfg)
    (hf : ∀ f, q.flight = some f → f.legal s.cfg) : WellShaped (s.setPort q) where
  legal_cfg := w.legal_cfg
  slots := w.slots
  collections := w.collections
  requesters := by simpa using w.requesters
  pins_legal := w.pins_legal
  flights_legal p hp := by
    rcases List.mem_or_eq_of_mem_set hp with hp | rfl
    · exact w.flights_legal p hp
    · exact hf
  ports_legal p hp := by
    rcases List.mem_or_eq_of_mem_set hp with hp | rfl
    · exact w.ports_legal p hp
    · exact hq

/-- A response moves the index by one, so it may follow only while a command stands at the index (R20). -/
theorem WellShaped.respond {s : State} (w : WellShaped s) {c : Command}
    (hc : s.port.prog[s.port.idx]? = some c) (st : Status) (v : Word) : WellShaped (s.respond st v) := by
  obtain ⟨hidx, -⟩ := List.getElem?_eq_some_iff.1 hc
  exact w.setPort ⟨hidx, fun _ hf => by cases hf⟩ fun _ hf => by cases hf

/-! ### A port in the middle of an instruction -/

/-- The port whose turn it is runs `i` in a well-shaped state: `i` is the command that its list has at the
index, and the port stands at a micro-step of `i`. -/
structure Running (i : Instr) (s : State) : Prop where
  shaped : WellShaped s
  presented : ∃ c, s.port.prog[s.port.idx]? = some c ∧ decode s.cfg c = .ok i
  mstep_pos : 1 ≤ s.mstep
  mstep_le : s.mstep ≤ lastMicroStep i

theorem one_le_lastMicroStep (i : Instr) : 1 ≤ lastMicroStep i := by cases i <;> simp [lastMicroStep]

section
variable {i : Instr} {s t : State}

/-- A port that runs the command in flight, or begins the one it presents, is running. -/
theorem WellShaped.running {p : Port} (w : WellShaped s) (hp : s.ports[s.turn.port]? = some p)
    (hi : (∃ f, p.flight = some f ∧ f.instr = i) ∨
      (p.flight = none ∧ ∃ c, p.prog[p.idx]? = some c ∧ decode s.cfg c = .ok i)) : Running i s := by
  have hmem : p ∈ s.ports := List.mem_of_getElem? hp
  have hport : s.port = p := port_of_getElem? hp
  rcases hi with ⟨f, hf, rfl⟩ | ⟨hf, hc⟩
  · have hm : s.mstep = f.mstep := by simp [State.mstep, hport, hf]
    obtain ⟨-, hcommand⟩ := w.ports_legal p hmem
    obtain ⟨-, hpos, hle⟩ := w.flights_legal p hmem f hf
    exact ⟨w, hport ▸ hcommand f hf, hm ▸ hpos, hm ▸ hle⟩
  · have hm : s.mstep = 1 := by simp [State.mstep, hport, hf]
    exact ⟨w, hport ▸ hc, hm ▸ le_rfl, hm ▸ one_le_lastMicroStep i⟩

theorem Running.wellFormed (r : Running i s) : i.wellFormed s.cfg = true := by
  obtain ⟨_, -, hd⟩ := r.presented
  exact decode_wellFormed hd

/-! ### Updates that keep the port running -/

/-- Where the port stands is read off the ports, the turn and the parameters alone. -/
theorem Running.congr {u : State} (r : Running i s) (w : WellShaped u) (hcfg : u.cfg = s.cfg)
    (hports : u.ports = s.ports) (hturn : u.turn = s.turn) : Running i u := by
  have hport : u.port = s.port := by simp only [State.port, hports, hturn]
  have hm : u.mstep = s.mstep := by simp only [State.mstep, hport]
  exact ⟨w, hport ▸ hcfg ▸ r.presented, hm ▸ r.mstep_pos, hm ▸ r.mstep_le⟩

theorem Running.setPin (r : Running i s) (h : BitVec 8) {p : Pin} (hp : p.legal s.cfg) :
    Running i (s.setPin h p) :=
  r.congr (r.shaped.setPin h hp) rfl rfl rfl

theorem Running.setColl (r : Running i s) (c : Nat) (x : Collection) : Running i (s.setColl c x) :=
  r.congr (r.shaped.congr rfl rfl rfl (by simp)) rfl rfl rfl

theorem Running.setBank (r : Running i s) (b : BankId) (x : Bank) : Running i (s.setBank b x) :=
  r.congr (r.shaped.congr rfl rfl rfl rfl) rfl rfl rfl

theorem Running.setMap (r : Running i s) (m : MapState) : Running i { s with map := m } :=
  r.congr (r.shaped.congr rfl rfl rfl rfl) rfl rfl rfl

theorem Running.afterRead (r : Running i s) (g : Reg) : Running i (s.afterRead g) :=
  r.congr (r.shaped.congr (by simp) (by simp) (by simp) (by simp)) (by simp) (by simp) (by simp)

theorem Running.lazyOpen (r : Running i s) : Running i s.lazyOpen :=
  r.congr (r.shaped.congr (by simp) (by simp) (by simp) (by simp)) (by simp) (by simp) (by simp)

/-! ### How a micro-step ends -/

/-- If the result is a next state, that state is well shaped. -/
def NextShaped (x : Result) : Prop := ∀ t, x = .next t → WellShaped t

theorem WellShaped.nextShaped (w : WellShaped t) : NextShaped (.next t) := fun _ h => by cases h; exact w

theorem Running.respond (r : Running i s) (st : Status) (v : Word) : NextShaped (.next (s.respond st v)) := by
  obtain ⟨_, hc, -⟩ := r.presented
  exact (r.shaped.respond hc st v).nextShaped

theorem Running.raise (r : Running i s) (st : Status) : NextShaped (.next (s.raise st)) := r.respond st 0

/-- The command in flight stays the one at the index, at any micro-step that its rule has. For a literal
micro-step and a given command both bounds are computed. -/
theorem Running.enter (r : Running i s) {n : Nat} (x : Temps) (hpos : 1 ≤ n := by decide)
    (hle : n ≤ lastMicroStep i := by simp [lastMicroStep]) :
    NextShaped (.next (s.enter i n x)) := by
  obtain ⟨c, hc, hd⟩ := r.presented
  obtain ⟨hidx, -⟩ := List.getElem?_eq_some_iff.1 hc
  have hport : ({ s.port with flight := some ⟨i, n, x⟩ } : Port).legal s.cfg :=
    ⟨hidx.le, fun _ hf => by cases hf; exact ⟨c, hc, hd⟩⟩
  exact (r.shaped.setPort hport fun _ hf => by cases hf; exact ⟨r.wellFormed, hpos, hle⟩).nextShaped

theorem Running.hold (r : Running i s) : NextShaped (.next (s.hold i)) := r.enter _ r.mstep_pos r.mstep_le

/-! ### One rule for each shared operation -/

theorem Running.readThen (r : Running i s) {b : BankId} {g : Reg} {k : Word → State → Result}
    (hk : ∀ w u, Running i u → NextShaped (k w u)) : NextShaped (s.readThen i b g k) := fun t h => by
  rcases readThen_next h with ⟨-, rfl⟩ | ⟨-, rfl⟩ | ⟨-, hgo⟩
  · exact r.hold _ rfl
  · exact r.raise _ _ rfl
  · exact hk _ _ (r.afterRead g) t hgo

theorem Running.writeThen (r : Running i s) {b : BankId} {g : Reg} {v : Word} {e : State → State}
    {k : State → Result} (he : Running i (e s)) (hk : ∀ x, NextShaped (k (s.setBank b x))) :
    NextShaped (s.writeThen i b g v e k) := fun t h => by
  rcases writeThen_next h with ⟨-, rfl⟩ | ⟨-, rfl⟩ | ⟨-, x, -, hgo⟩
  · exact r.hold _ rfl
  · exact he.raise _ _ rfl
  · exact hk x t hgo

theorem Running.writePhys (r : Running i s) (b : BankId) (m : Word) (p : Bool) :
    NextShaped (s.writePhys i b m p) :=
  r.writeThen r fun x => (r.setBank b x).respond .ok 0

theorem Running.requireMap (r : Running i s) {k : State → Result}
    (hk : ∀ u, Running i u → NextShaped (k u)) : NextShaped (s.requireMap k) := fun t h => by
  rcases requireMap_next h with ⟨-, rfl⟩ | ⟨-, hgo⟩
  · exact r.lazyOpen.raise _ _ rfl
  · exact hk _ r.lazyOpen t hgo

theorem Running.withHandle (r : Running i s) {h : BitVec 8} {k : Pin → Result}
    (hk : ∀ p, NextShaped (k p)) : NextShaped (s.withHandle h k) := fun t hn => by
  rcases withHandle_next hn with ⟨-, rfl⟩ | ⟨-, hgo⟩
  · exact r.raise _ _ rfl
  · exact hk _ t hgo

theorem Running.withLock (r : Running i s) {c : Nat} {k : Collection → Result}
    (hk : ∀ x, NextShaped (k x)) : NextShaped (s.withLock i c k) := fun t h => by
  rcases withLock_next h with ⟨-, rfl⟩ | ⟨-, hgo⟩
  · exact r.hold _ rfl
  · exact hk _ t hgo

end

/-! ### The slots that the commands write (R15) -/

/-- A well-formed PINNEW binds a legal slot. -/
theorem bound_legal {cfg : Config} {h : BitVec 8} {ic : Bool} {coll : BitVec 7} {num : BitVec 8}
    (hw : (Instr.pinnew h ic coll num).wellFormed cfg = true) (n : BitVec 7) :
    (Pin.bound n ic coll).legal cfg := by
  intro _
  cases ic with
  | false => rfl
  | true =>
    obtain ⟨-, hcoll⟩ : h.toNat < cfg.nh ∧ coll.toNat < cfg.ncoll := by simpa [Instr.wellFormed] using hw
    exact hcoll

/-- A slot stays legal when its polarity changes. -/
theorem legal_setActLow {cfg : Config} {p : Pin} (hp : p.legal cfg) (v : Bool) :
    ({ p with al := v } : Pin).legal cfg := hp

/-! ### The instructions, family by family -/

section
variable {s : State}

theorem execMapopen_nextShaped (r : Running .mapopen s) : NextShaped (execMapopen s) := by
  unfold execMapopen
  split
  · split
    · exact (r.setMap _).respond .ok 0
    · exact (r.setMap _).raise .hardwareIncompatible
  · exact r.respond .ok 0
  · exact r.raise .hardwareIncompatible
  · exact r.raise .invalidOperation

theorem execMapclose_nextShaped (r : Running .mapclose s) : NextShaped (execMapclose s) := by
  unfold execMapclose
  split
  · exact (r.setMap .closed).respond .ok 0
  all_goals exact r.respond .ok 0

theorem execRegrd_nextShaped {b : BankId} {g : Reg} (r : Running (.regrd b g) s) :
    NextShaped (execRegrd b g s) := by
  unfold execRegrd
  split
  · exact r.readThen fun w _ ru => ru.respond .ok w
  · exact r.requireMap fun _ ru => ru.enter _

theorem execRegwr_nextShaped {b : BankId} {g : Reg} {w : Word} (r : Running (.regwr b g w) s) :
    NextShaped (execRegwr b g w s) := by
  unfold execRegwr
  split
  · exact r.writeThen r fun x => (r.setBank b x).respond .ok 0
  · exact r.requireMap fun _ ru => ru.enter _

theorem execPinnew_nextShaped {h : BitVec 8} {ic : Bool} {coll : BitVec 7} {num : BitVec 8}
    (r : Running (.pinnew h ic coll num) s) : NextShaped (execPinnew h ic coll num s) := by
  unfold execPinnew
  split
  · split
    · exact (r.setBank _ _).enter _
    · exact r.raise .resourceUnavailable
  · exact (r.setPin h (bound_legal r.wellFormed _)).respond .ok 0
  · split
    · exact r.raise .invalidOperation
    · exact r.requireMap fun _ ru => ru.enter _

theorem setstateBatch_nextShaped {h : BitVec 8} {v : Bool} (r : Running (.setstate h v) s) (p : Pin) :
    NextShaped (setstateBatch h v p s) := by
  unfold setstateBatch
  refine r.withLock fun x => ?_
  split
  · exact (r.setColl _ _).respond .ok 0
  · exact r.enter _

theorem execSetstate_nextShaped {h : BitVec 8} {v : Bool} (r : Running (.setstate h v) s) :
    NextShaped (execSetstate h v s) := by
  unfold execSetstate
  split
  · exact r.writePhys _ _ _
  · refine r.withHandle fun p => ?_
    split
    · exact setstateBatch_nextShaped r p
    · exact r.writePhys _ _ _

theorem execSetimm_nextShaped {h : BitVec 8} {v : Bool} (r : Running (.setimm h v) s) :
    NextShaped (execSetimm h v s) :=
  r.withHandle fun _ => r.writePhys _ _ _

/-- The first micro-step that GETSTATE and SETACTLOW share leads to M2. -/
theorem readDirection_nextShaped {i : Instr} (r : Running i s) (hi : 2 ≤ lastMicroStep i) (h : BitVec 8) :
    NextShaped (readDirection i h s) :=
  r.withHandle fun _ => r.readThen fun _ _ ru => ru.enter _ (hle := hi)

theorem execGetstate_nextShaped {h : BitVec 8} (r : Running (.getstate h) s) :
    NextShaped (execGetstate h s) := by
  unfold execGetstate
  split
  · exact r.readThen fun _ _ ru => ru.respond .ok _
  · exact readDirection_nextShaped r le_rfl h

theorem execChkdir_nextShaped {h : BitVec 8} (r : Running (.chkdir h) s) : NextShaped (execChkdir h s) :=
  r.withHandle fun _ => r.readThen fun _ _ ru => ru.respond .ok _

theorem execSetactlow_nextShaped {h : BitVec 8} {v : Bool} (r : Running (.setactlow h v) s) :
    NextShaped (execSetactlow h v s) := by
  have hset : Running (.setactlow h v) (s.setPin h { s.pin h with al := v }) :=
    r.setPin h (legal_setActLow (r.shaped.pins_legal h) v)
  unfold execSetactlow
  split
  · exact r.readThen fun _ _ ru => ru.enter _
  · split
    · exact hset.respond .ok 0
    · exact hset.enter _
  · exact r.writePhys _ _ _
  · exact readDirection_nextShaped r (by simp [lastMicroStep]) h

theorem execSetdeb_nextShaped {h : BitVec 8} {v : Bool} (r : Running (.setdeb h v) s) :
    NextShaped (execSetdeb h v s) := by
  unfold execSetdeb
  split
  · exact r.readThen fun _ _ ru => ru.enter _
  · exact r.writeThen r fun x => (r.setBank _ x).respond .ok 0
  · refine r.withHandle fun p => r.readThen fun oe u ru => ?_
    split
    · exact ru.raise .invalidOperation
    · exact ru.enter _

theorem execBegin_nextShaped {c : BitVec 8} (r : Running (.beginTx c) s) : NextShaped (execBegin c s) :=
  r.withLock fun _ => (r.setColl _ _).respond .ok 0

theorem execGetpend_nextShaped {h : BitVec 8} (r : Running (.getpend h) s) :
    NextShaped (execGetpend h s) := by
  refine r.withHandle fun p => ?_
  split
  · exact r.withLock fun _ => r.respond .ok _
  · exact r.raise .invalidOperation

theorem commitTake_nextShaped {c : BitVec 8} (r : Running (.commit c) s) : NextShaped (commitTake c s) :=
  r.withLock fun _ => r.requireMap fun _ ru => (ru.setColl _ _).enter _

/-- A write of COMMIT leads to the next micro-step, so it must not be the last one. -/
theorem commitWrite_nextShaped {c : BitVec 8} (r : Running (.commit c) s) (hm : s.mstep + 1 ≤ 10)
    (b : BankId) (d : Drive) : NextShaped (commitWrite c b d s) :=
  r.writeThen (r.setColl _ _) fun x => (r.setBank b x).enter _ (Nat.le_add_left ..) hm

/-- The order has eight entries (R88), so a write stands at M9 at the latest and M10 releases the lock. -/
theorem execCommit_nextShaped {c : BitVec 8} (r : Running (.commit c) s) : NextShaped (execCommit c s) := by
  unfold execCommit
  split
  · exact commitTake_nextShaped r
  · exact commitTake_nextShaped r
  next k hm =>
    split
    next b d hbd =>
      obtain ⟨-, -, -, -, -, ⟨hlen, -⟩, -⟩ := r.shaped.legal_cfg
      obtain ⟨hk, -⟩ := List.getElem?_eq_some_iff.1 hbd
      exact commitWrite_nextShaped r (by omega) b d
    · exact (r.setColl _ _).respond .ok 0

end

/-! ### The step -/

/-- A micro-step of any instruction keeps the shape. -/
theorem exec_nextShaped {i : Instr} {s : State} (r : Running i s) : NextShaped (exec i s) := by
  cases i with
  | mapopen => exact execMapopen_nextShaped r
  | mapclose => exact execMapclose_nextShaped r
  | regrd => exact execRegrd_nextShaped r
  | regwr => exact execRegwr_nextShaped r
  | pinnew => exact execPinnew_nextShaped r
  | setstate => exact execSetstate_nextShaped r
  | setimm => exact execSetimm_nextShaped r
  | getstate => exact execGetstate_nextShaped r
  | chkdir => exact execChkdir_nextShaped r
  | setactlow => exact execSetactlow_nextShaped r
  | setdeb => exact execSetdeb_nextShaped r
  | beginTx => exact execBegin_nextShaped r
  | commit => exact execCommit_nextShaped r
  | getpend => exact execGetpend_nextShaped r

/-- A port's turn keeps the shape: it is idle, answers the illegal command at its index, or runs a micro-step. -/
theorem runPort_nextShaped {s : State} (w : WellShaped s) : NextShaped (runPort s) := fun t h => by
  rcases runPort_next h with rfl | ⟨p, c, e, hp, -, hc, -, rfl⟩ | ⟨p, i, hp, hexec, hi⟩
  · exact w
  · exact w.respond ((port_of_getElem? hp).symm ▸ hc) .illegalCommand 0
  · exact exec_nextShaped (w.running hp hi) t hexec

/-- Settles O53: a move of the host changes no part that the shape is about, and a port's turn keeps it by
`runPort_nextShaped`. -/
theorem stepKeepsWellShaped : Obligations.StepKeepsWellShaped := by
  intro s t w h
  rcases step_next h with ⟨m, ts, -, rfl⟩ | ⟨p, -, hrun⟩
  · obtain ⟨hcfg, -, hpins, hcolls, hports, -⟩ := hostMove_block { s with turns := ts } m
    exact w.congr hcfg hports hpins (congrArg List.length hcolls)
  · exact runPort_nextShaped (w.congr rfl rfl rfl rfl : WellShaped (s.taking p)) t hrun

end Sys2Proof.Machine
end

section
/-! PROOFS. The parts of the state, and the words that act on the port of the turn: what each reads back, and
what a response, a position and a wait are as record updates. -/

namespace Sys2Proof.Machine

/-! ### Slots, Collections and banks -/

theorem setPin_pin_self (s : State) {h : BitVec 8} (p : Pin) (hlt : h.toNat < s.pins.length) :
    (s.setPin h p).pin h = p := by
  rw [setPin_pin, if_pos ⟨rfl, hlt⟩]

theorem setColl_coll_self (s : State) {c : Nat} (x : Collection) (hlt : c < s.colls.length) :
    (s.setColl c x).coll c = x := by
  rw [setColl_coll, if_pos ⟨rfl, hlt⟩]

/-- Settles O8. -/
theorem partsReadBackWhatWasWritten : Obligations.PartsReadBackWhatWasWritten :=
  ⟨fun s _ _ p hlt => ⟨setPin_pin_self s p hlt, setPin_pin_ne s p⟩,
    fun s _ _ x hlt => ⟨setColl_coll_self s x hlt, setColl_coll_ne s x⟩,
    fun s b _ x => ⟨setBank_bank_self s b x, setBank_bank_ne s x⟩⟩

/-! ### The port of the turn -/

section
variable {s : State} {p : Port}

theorem respond_eq (hp : s.ports[s.turn.port]? = some p) (st : Status) (v : Word) :
    s.respond st v =
      { s with ports := s.ports.set s.turn.port ⟨p.prog, p.idx + 1, none, ⟨st, v⟩⟩ } := by
  rw [State.respond, port_of_getElem? hp]
  rfl

theorem enter_eq (hp : s.ports[s.turn.port]? = some p) (i : Instr) (n : Nat) (t : Temps) :
    s.enter i n t =
      { s with ports := s.ports.set s.turn.port ⟨p.prog, p.idx, some ⟨i, n, t⟩, p.rsp⟩ } := by
  rw [State.enter, port_of_getElem? hp]
  rfl

theorem mstep_of_flight {f : Flight} (hp : s.ports[s.turn.port]? = some p) (hf : p.flight = some f) :
    s.mstep = f.mstep := by
  simp [State.mstep, port_of_getElem? hp, hf]

theorem temps_of_flight {f : Flight} (hp : s.ports[s.turn.port]? = some p) (hf : p.flight = some f) :
    s.temps = f.temps := by
  simp [State.temps, port_of_getElem? hp, hf]

theorem mstep_of_no_flight (hp : s.ports[s.turn.port]? = some p) (hf : p.flight = none) : s.mstep = 1 := by
  simp [State.mstep, port_of_getElem? hp, hf]

theorem temps_of_no_flight (hp : s.ports[s.turn.port]? = some p) (hf : p.flight = none) :
    s.temps = Temps.none := by
  simp [State.temps, port_of_getElem? hp, hf]

/-- A command that waits at its first micro-step is recorded in flight there (log 23). -/
theorem hold_eq_of_no_flight (hp : s.ports[s.turn.port]? = some p) (hf : p.flight = none) (i : Instr) :
    s.hold i =
      { s with ports := s.ports.set s.turn.port ⟨p.prog, p.idx, some ⟨i, 1, Temps.none⟩, p.rsp⟩ } := by
  rw [State.hold, mstep_of_no_flight hp hf, temps_of_no_flight hp hf, enter_eq hp]

/-- A list with an entry written over itself is the list. -/
theorem set_of_getElem? {α : Type} {l : List α} {n : Nat} {x : α} (h : l[n]? = some x) : l.set n x = l := by
  obtain ⟨hn, rfl⟩ := List.getElem?_eq_some_iff.1 h
  exact List.set_getElem_self hn

/-- A command in flight that waits leaves the state as it is (log 4). -/
theorem hold_eq_of_flight {f : Flight} (hp : s.ports[s.turn.port]? = some p) (hf : p.flight = some f) :
    s.hold f.instr = s := by
  have hself : (⟨p.prog, p.idx, some ⟨f.instr, f.mstep, f.temps⟩, p.rsp⟩ : Port) = p := by
    rw [show some (⟨f.instr, f.mstep, f.temps⟩ : Flight) = p.flight from hf.symm]
  rw [State.hold, mstep_of_flight hp hf, temps_of_flight hp hf, enter_eq hp, hself, set_of_getElem? hp]

end

/-- Settles O7: each word is the record update above. -/
theorem portWordsMeanWhatTheySay : Obligations.PortWordsMeanWhatTheySay :=
  ⟨fun _ _ hp => ⟨respond_eq hp, fun st => respond_eq hp st 0, enter_eq hp,
      fun i hf => hold_eq_of_no_flight hp hf i, fun _ hf => hold_eq_of_flight hp hf⟩,
    rfl, rfl, rfl, rfl, rfl, rfl⟩

/-! ### The turn of a step -/

/-- With no turn queued, none is used up. -/
theorem taking_of_no_turns {s : State} (h : s.turns = []) (t : PortTurn) : s.taking t = { s with turn := t } := by
  rw [State.taking, h, List.tail_nil, ← h]

theorem taking_of_queued {s : State} {a : Turn} {ts : List Turn} (h : s.turns = a :: ts) (t : PortTurn) :
    s.taking t = { s with turn := t, turns := ts } := by
  rw [State.taking, h, List.tail_cons]

/-- A step whose turn is a port's is a turn of that port. -/
theorem step_of_nextTurn {s : State} {t : PortTurn} (h : s.nextTurn = some t) :
    step s = runPort (s.taking t) := by
  obtain ⟨cfg, map, pins, colls, banks, ports, turn, turns, draws⟩ := s
  cases turns with
  | nil => cases h; rfl
  | cons a ts =>
    cases a with
    | port p => cases h; rfl
    | host m => cases h

theorem step_of_host {s : State} {m : HostMove} {ts : List Turn} (h : s.turns = .host m :: ts) :
    step s = .next (({ s with turns := ts } : State).hostMove m) := by
  simp [step, State.takeTurn, h]

/-! ### What the port of the turn has to do -/

section
variable {s : State} {p : Port}

theorem runPort_of_flight {f : Flight} (hp : s.ports[s.turn.port]? = some p) (hf : p.flight = some f) :
    runPort s = exec f.instr s := by
  simp [runPort, State.fetch, hp, hf]

theorem runPort_of_command {c : Command} {i : Instr} (hp : s.ports[s.turn.port]? = some p)
    (hf : p.flight = none) (hc : p.prog[p.idx]? = some c) (hd : decode s.cfg c = .ok i) :
    runPort s = exec i s := by
  simp [runPort, State.fetch, fetchCommand, Port.nextCommand, hp, hf, hc, hd]

theorem runPort_of_finished (hp : s.ports[s.turn.port]? = some p) (hf : p.flight = none)
    (hend : p.prog.length ≤ p.idx) : runPort s = .next s := by
  simp [runPort, State.fetch, fetchCommand, Port.nextCommand, hp, hf, hend]

theorem runPort_of_no_port (h : s.ports.length ≤ s.turn.port) : runPort s = .next s := by
  simp [runPort, State.fetch, h]

end

/-- Settles O6: a step is its turn, and a port's turn is one of the four cases above. -/
theorem stepRunsTheDecodedInstruction : Obligations.StepRunsTheDecodedInstruction := by
  refine ⟨fun s h => ⟨?rotation, taking_of_no_turns h⟩, fun s t ts h => ⟨?queued, taking_of_queued h t⟩,
    fun s t ht => step_of_nextTurn ht,
    fun s t p c i ht hp hf hc hd => (step_of_nextTurn ht).trans (runPort_of_command hp hf hc hd),
    fun s t p f ht hp hf => (step_of_nextTurn ht).trans (runPort_of_flight hp hf),
    fun s t p ht hp hf hend => (step_of_nextTurn ht).trans (runPort_of_finished hp hf hend),
    fun s t ht hlt => (step_of_nextTurn ht).trans (runPort_of_no_port hlt),
    fun s m ts h => ⟨?host, step_of_host h⟩, fun s b w => ⟨rfl, rfl, rfl⟩⟩
  case rotation => simp [State.nextTurn, h, State.rotated]
  case queued => simp [State.nextTurn, h]
  case host => simp [State.nextTurn, h]

/-! ### Reset -/

/-- A table of copies of its default reads as the default everywhere. -/
theorem getD_replicate_default {α : Type} (n k : Nat) (d : α) : (List.replicate n d).getD k d = d := by
  simp only [List.getD_eq_getElem?_getD, List.getElem?_replicate]
  split <;> rfl

theorem blockReset_pin (s : State) (h : BitVec 8) : s.blockReset.pin h = Pin.empty := getD_replicate_default ..

theorem blockReset_coll (s : State) (c : Nat) : s.blockReset.coll c = Collection.idle :=
  getD_replicate_default ..

theorem blockReset_port (s : State) (n : Nat) :
    s.blockReset.ports[n]? = (s.ports[n]?).map fun p => Port.start p.prog := List.getElem?_map

theorem blockReset_quiet (s : State) : s.blockReset.quiet = true := by
  simp [State.quiet, State.blockReset, Port.start]

theorem reset_pin (h : BitVec 8) : State.reset.pin h = Pin.empty := getD_replicate_default ..

theorem reset_coll (c : Nat) : State.reset.coll c = Collection.idle := getD_replicate_default ..

/-- Settles O55: the tables are copies of the empty slot and of the idle Collection, and each port starts again
with its command list. -/
theorem resetLeavesTheStatedValues : Obligations.ResetLeavesTheStatedValues := by
  refine ⟨fun s => ⟨rfl, fun h => congrArg Pin.valid (blockReset_pin s h), List.length_replicate,
    List.length_replicate, blockReset_coll s, List.length_map _, fun n p hp => ?port, rfl, rfl,
    blockReset_quiet s⟩, rfl, fun h => congrArg Pin.valid (reset_pin h), fun c => ?coll, fun p hp => ?start⟩
  case port => exact ⟨Port.start p.prog, by rw [blockReset_port, hp]; rfl, rfl, rfl, rfl⟩
  case coll =>
    rw [reset_coll]
    exact ⟨rfl, rfl, fun b => ⟨perBank_get_all 0 b, perBank_get_all 0 b⟩⟩
  case start =>
    cases List.eq_of_mem_replicate hp
    exact ⟨rfl, rfl⟩

end Sys2Proof.Machine
end

section
/-! PROOFS. What a micro-step can do, said once for all fourteen commands: `MicroStep i s t`, with `exec_microStep`
that every next state of `exec i s` is one. Beside the port, and at most one Collection, a micro-step only does what
`Keeps` allows. -/

namespace Sys2Proof.Machine

/-! ### What a micro-step may change beside its port and a Collection -/

/-- `u` is `s` but for the map, what the slots hold, the registers of the banks, clocks that were started, and the
draws. -/
structure Keeps (s u : State) : Prop where
  cfg : u.cfg = s.cfg
  colls : u.colls = s.colls
  ports : u.ports = s.ports
  turn : u.turn = s.turn
  slots : u.pins.length = s.pins.length
  clocks : ∀ b, (s.bank b).clkEn = true → (u.bank b).clkEn = true

theorem Keeps.refl (s : State) : Keeps s s := ⟨rfl, rfl, rfl, rfl, rfl, fun _ => id⟩

section
variable {s u : State}

theorem Keeps.port (k : Keeps s u) : u.port = s.port := by
  simp only [State.port, k.ports, k.turn]

theorem Keeps.coll (k : Keeps s u) (c : Nat) : u.coll c = s.coll c := by
  simp only [State.coll, k.colls]

theorem keeps_setPin (s : State) (h : BitVec 8) (p : Pin) : Keeps s (s.setPin h p) :=
  ⟨rfl, rfl, rfl, rfl, by simp, fun _ => id⟩

theorem keeps_setMap (s : State) (m : MapState) : Keeps s { s with map := m } :=
  ⟨rfl, rfl, rfl, rfl, rfl, fun _ => id⟩

/-- Writing one bank stops no clock if it does not stop that bank's. -/
theorem setBank_clkEn {b : BankId} {x : Bank} (hx : (s.bank b).clkEn = true → x.clkEn = true) (d : BankId)
    (hd : (s.bank d).clkEn = true) : ((s.setBank b x).bank d).clkEn = true := by
  rw [setBank_bank]
  split
  next hdb => exact hx (hdb ▸ hd)
  next => exact hd

theorem keeps_setBank {b : BankId} {x : Bank} (hx : (s.bank b).clkEn = true → x.clkEn = true) :
    Keeps s (s.setBank b x) :=
  ⟨rfl, rfl, rfl, rfl, rfl, setBank_clkEn hx⟩

theorem keeps_startClock (s : State) (b : BankId) : Keeps s (s.startClock b) := keeps_setBank fun _ => rfl

theorem keeps_afterRead (s : State) (r : Reg) : Keeps s (s.afterRead r) := by
  cases r <;> exact ⟨rfl, rfl, rfl, rfl, rfl, fun _ => id⟩

theorem keeps_lazyOpen (s : State) : Keeps s s.lazyOpen := by
  unfold State.lazyOpen
  split
  · exact keeps_setMap s _
  · exact Keeps.refl s

/-- No register of a bank is its clock (R24). -/
theorem write_clkEn {k x : Bank} {r : Reg} {v : Word} (h : k.write r v = some x) : x.clkEn = k.clkEn := by
  cases r <;> cases h <;> rfl

theorem keeps_write {b : BankId} {r : Reg} {v : Word} {x : Bank} (h : (s.bank b).write r v = some x) :
    Keeps s (s.setBank b x) :=
  keeps_setBank fun hb => (write_clkEn h).trans hb

end

/-! ### Collections and the COMMITs in flight -/

/-- Rule R18 of one Collection. -/
def Collection.Consistent (x : Collection) : Prop :=
  ∀ b, x.pset.get b &&& x.pclr.get b = 0 ∧ (x.recording = false → x.pset.get b = 0 ∧ x.pclr.get b = 0)

/-- The Collection whose lock a port holds while it stands at micro-step `n` of instruction `i` (R48). -/
def commitAt (i : Instr) (n : Nat) : Option Nat :=
  match i with
  | .commit c => if 2 ≤ n then some c.toNat else none
  | _ => none

theorem commitAt_commit_first {c : BitVec 8} {n : Nat} (h : n < 2) : commitAt (.commit c) n = none :=
  if_neg (by omega)

theorem commitAt_commit_later {c : BitVec 8} {n : Nat} (h : 2 ≤ n) : commitAt (.commit c) n = some c.toNat :=
  if_pos h

/-! ### The micro-step -/

/-- What a micro-step of instruction `i` in state `s` can lead to. -/
inductive MicroStep (i : Instr) (s : State) : State → Prop
  /-- The command ends, and no Collection changes. -/
  | ends {u : State} (k : Keeps s u) (hout : commitAt i s.mstep = none) (st : Status) (v : Word) :
      MicroStep i s (u.respond st v)
  /-- The command stays in flight, no Collection changes, and no lock is due to change hands. -/
  | stays {u : State} (k : Keeps s u) {n : Nat} (hn : commitAt i n = commitAt i s.mstep) (x : Temps) :
      MicroStep i s (u.enter i n x)
  /-- BEGIN or SETSTATE ends and has written to a Collection that no COMMIT holds (R86, R87). -/
  | records (hout : commitAt i s.mstep = none) {c : Nat} {x : Collection} (hlock : x.lock = (s.coll c).lock)
      (hx : (s.coll c).Consistent → x.Consistent) (st : Status) (v : Word) :
      MicroStep i s ((s.setColl c x).respond st v)
  /-- COMMIT takes the free lock and goes on to M2 (R88). -/
  | takes {u : State} (k : Keeps s u) {c : BitVec 8} (hi : i = .commit c) (hm : s.mstep < 2)
      (hfree : (s.coll c.toNat).lock = .free) (x : Temps) :
      MicroStep i s ((u.setLock c.toNat (.held u.turn.port)).enter i 2 x)
  /-- COMMIT ends and frees the lock (R88). -/
  | releases {c : BitVec 8} (hi : i = .commit c) (hm : 2 ≤ s.mstep) {x : Collection} (hfree : x.lock = .free)
      (hx : (s.coll c.toNat).Consistent → x.Consistent) (st : Status) (v : Word) :
      MicroStep i s ((s.setColl c.toNat x).respond st v)

/-- If the result is a next state, a micro-step of `i` in `s` leads to it. -/
def MakesStep (i : Instr) (s : State) (r : Result) : Prop := ∀ t, r = .next t → MicroStep i s t

theorem MicroStep.makes {i : Instr} {s t : State} (m : MicroStep i s t) : MakesStep i s (.next t) :=
  fun _ h => by cases h; exact m

/-! ### One rule for each shared operation

`hout` says that the port holds no lock, which is so for every command but COMMIT, by computation. -/

section
variable {i : Instr} {s u : State}

theorem Keeps.responds (k : Keeps s u) (st : Status) (v : Word) (hout : commitAt i s.mstep = none := by rfl) :
    MakesStep i s (.next (u.respond st v)) :=
  (MicroStep.ends k hout st v).makes

theorem Keeps.raises (k : Keeps s u) (st : Status) (hout : commitAt i s.mstep = none := by rfl) :
    MakesStep i s (.next (u.raise st)) :=
  k.responds st 0 hout

theorem Keeps.enters (k : Keeps s u) (n : Nat) (x : Temps) (hn : commitAt i n = commitAt i s.mstep := by rfl) :
    MakesStep i s (.next (u.enter i n x)) :=
  (MicroStep.stays k hn x).makes

theorem hold_makes : MakesStep i s (.next (s.hold i)) := (Keeps.refl s).enters _ _

theorem readThen_makes {b : BankId} {r : Reg} {k : Word → State → Result}
    (hk : ∀ w u, Keeps s u → MakesStep i s (k w u)) (hout : commitAt i s.mstep = none := by rfl) :
    MakesStep i s (s.readThen i b r k) := fun t h => by
  rcases readThen_next h with ⟨-, rfl⟩ | ⟨-, rfl⟩ | ⟨-, hgo⟩
  · exact hold_makes _ rfl
  · exact (Keeps.refl s).raises _ hout _ rfl
  · exact hk _ _ (keeps_afterRead s r) t hgo

theorem writeThen_makes {b : BankId} {r : Reg} {v : Word} {e : State → State} {k : State → Result}
    (he : MakesStep i s (.next ((e s).raise .transientIO))) (hk : ∀ u, Keeps s u → MakesStep i s (k u)) :
    MakesStep i s (s.writeThen i b r v e k) := fun t h => by
  rcases writeThen_next h with ⟨-, rfl⟩ | ⟨-, rfl⟩ | ⟨-, x, hx, hgo⟩
  · exact hold_makes _ rfl
  · exact he _ rfl
  · exact hk _ (keeps_write hx) t hgo

theorem writePhys_makes (b : BankId) (m : Word) (p : Bool) (hout : commitAt i s.mstep = none := by rfl) :
    MakesStep i s (s.writePhys i b m p) :=
  writeThen_makes ((Keeps.refl s).raises _ hout) fun _ ku => ku.responds _ _ hout

theorem requireMap_makes {k : State → Result} (hk : ∀ u, Keeps s u → MakesStep i s (k u))
    (hout : commitAt i s.mstep = none := by rfl) : MakesStep i s (s.requireMap k) := fun t h => by
  rcases requireMap_next h with ⟨-, rfl⟩ | ⟨-, hgo⟩
  · exact (keeps_lazyOpen s).raises _ hout _ rfl
  · exact hk _ (keeps_lazyOpen s) t hgo

theorem withHandle_makes {h : BitVec 8} {k : Pin → Result} (hk : ∀ p, MakesStep i s (k p))
    (hout : commitAt i s.mstep = none := by rfl) : MakesStep i s (s.withHandle h k) := fun t hn => by
  rcases withHandle_next hn with ⟨-, rfl⟩ | ⟨-, hgo⟩
  · exact (Keeps.refl s).raises _ hout _ rfl
  · exact hk _ t hgo

theorem withLock_makes {c : Nat} {k : Collection → Result}
    (hk : (s.coll c).lock = .free → MakesStep i s (k (s.coll c))) :
    MakesStep i s (s.withLock i c k) := fun t h => by
  rcases withLock_next h with ⟨-, rfl⟩ | ⟨hfree, hgo⟩
  · exact hold_makes _ rfl
  · exact hk hfree t hgo

end

/-! ### What the batch commands do to a Collection -/

/-- Setting a bit in one mask and clearing it in the other keeps them disjoint. -/
theorem or_and_andNot_eq_zero {a k : Word} (h : a &&& k = 0) (m : Word) : (a ||| m) &&& (k &&& ~~~m) = 0 :=
  calc (a ||| m) &&& (k &&& ~~~m)
      = (a &&& k) &&& ~~~m := by
        apply BitVec.eq_of_getLsbD_eq
        intro j hj
        simp only [BitVec.getLsbD_and, BitVec.getLsbD_or, BitVec.getLsbD_not, hj]
        cases m.getLsbD j <;> simp
    _ = 0 := by rw [h]; exact BitVec.zero_and

section
variable {x : Collection}

theorem Collection.Consistent.startRecording (h : x.Consistent) :
    ({ x with recording := true } : Collection).Consistent :=
  fun b => ⟨(h b).1, fun hrec => by cases hrec⟩

/-- Only a Collection that records is buffered to, so that its masks need not be zero (R87). -/
theorem Collection.Consistent.buffer (h : x.Consistent) (hrec : x.recording = true) (b : BankId) (m : Word)
    (p : Bool) : (x.buffer b m p).Consistent := fun d => by
  have hrec' : (x.buffer b m p).recording = true := by cases p <;> exact hrec
  refine ⟨?_, fun hidle => absurd (hrec'.symm.trans hidle) (by decide)⟩
  cases p with
  | true =>
    simp only [Collection.buffer, if_true, perBank_get_set]
    split
    · exact or_and_andNot_eq_zero (h b).1 m
    · exact (h d).1
  | false =>
    simp only [Collection.buffer, Bool.false_eq_true, if_false, perBank_get_set]
    split
    · exact (BitVec.and_comm _ _).trans (or_and_andNot_eq_zero ((BitVec.and_comm _ _).trans (h b).1) m)
    · exact (h d).1

theorem buffer_lock (x : Collection) (b : BankId) (m : Word) (p : Bool) : (x.buffer b m p).lock = x.lock := by
  cases p <;> rfl

theorem idle_consistent : Collection.idle.Consistent := fun b => by
  simp [Collection.idle]

end

/-! ### The instructions, family by family -/

section
variable (s : State)

theorem execMapopen_makes : MakesStep .mapopen s (execMapopen s) := by
  unfold execMapopen
  split
  · split
    · exact (keeps_setMap s _).responds .ok 0
    · exact (keeps_setMap s _).raises .hardwareIncompatible
  · exact (Keeps.refl s).responds .ok 0
  · exact (Keeps.refl s).raises .hardwareIncompatible
  · exact (Keeps.refl s).raises .invalidOperation

theorem execMapclose_makes : MakesStep .mapclose s (execMapclose s) := by
  unfold execMapclose
  split
  · exact (keeps_setMap s .closed).responds .ok 0
  all_goals exact (Keeps.refl s).responds .ok 0

theorem execRegrd_makes (b : BankId) (r : Reg) : MakesStep (.regrd b r) s (execRegrd b r s) := by
  unfold execRegrd
  split
  · exact readThen_makes fun w _ k => k.responds .ok w
  · exact requireMap_makes fun _ k => k.enters 2 _

theorem execRegwr_makes (b : BankId) (r : Reg) (w : Word) : MakesStep (.regwr b r w) s (execRegwr b r w s) := by
  unfold execRegwr
  split
  · exact writeThen_makes ((Keeps.refl s).raises _) fun _ k => k.responds .ok 0
  · exact requireMap_makes fun _ k => k.enters 2 _

theorem execPinnew_makes (h : BitVec 8) (ic : Bool) (coll : BitVec 7) (num : BitVec 8) :
    MakesStep (.pinnew h ic coll num) s (execPinnew h ic coll num s) := by
  unfold execPinnew
  split
  · split
    · exact (keeps_startClock s _).enters 3 _
    · exact (Keeps.refl s).raises .resourceUnavailable
  · exact (keeps_setPin s h _).responds .ok 0
  · split
    · exact (Keeps.refl s).raises .invalidOperation
    · exact requireMap_makes fun _ k => k.enters 2 _

theorem setstateBatch_makes (h : BitVec 8) (v : Bool) (p : Pin) :
    MakesStep (.setstate h v) s (setstateBatch h v p s) := by
  refine withLock_makes fun _ => ?_
  split
  next hrec =>
    exact MicroStep.makes (.records rfl (buffer_lock ..) (fun hx => hx.buffer hrec _ _ _) .ok 0)
  next => exact (Keeps.refl s).enters 2 _

theorem execSetstate_makes (h : BitVec 8) (v : Bool) : MakesStep (.setstate h v) s (execSetstate h v s) := by
  unfold execSetstate
  split
  · exact writePhys_makes _ _ _
  · refine withHandle_makes fun p => ?_
    split
    · exact setstateBatch_makes s h v p
    · exact writePhys_makes _ _ _

theorem execSetimm_makes (h : BitVec 8) (v : Bool) : MakesStep (.setimm h v) s (execSetimm h v s) :=
  withHandle_makes fun _ => writePhys_makes _ _ _

/-- The first micro-step that GETSTATE and SETACTLOW share. -/
theorem readDirection_makes {i : Instr} (hi : ∀ n, commitAt i n = none) (h : BitVec 8) :
    MakesStep i s (readDirection i h s) :=
  withHandle_makes (hout := hi _) fun _ =>
    readThen_makes (hout := hi _) fun _ _ k => k.enters 2 _ ((hi _).trans (hi _).symm)

theorem execGetstate_makes (h : BitVec 8) : MakesStep (.getstate h) s (execGetstate h s) := by
  unfold execGetstate
  split
  · exact readThen_makes fun _ _ k => k.responds .ok _
  · exact readDirection_makes s (fun _ => rfl) h

theorem execChkdir_makes (h : BitVec 8) : MakesStep (.chkdir h) s (execChkdir h s) :=
  withHandle_makes fun _ => readThen_makes fun _ _ k => k.responds .ok _

theorem execSetactlow_makes (h : BitVec 8) (v : Bool) : MakesStep (.setactlow h v) s (execSetactlow h v s) := by
  unfold execSetactlow
  split
  · exact readThen_makes fun _ _ k => k.enters 3 _
  · split
    · exact (keeps_setPin s h _).responds .ok 0
    · exact (keeps_setPin s h _).enters 4 _
  · exact writePhys_makes _ _ _
  · exact readDirection_makes s (fun _ => rfl) h

theorem execSetdeb_makes (h : BitVec 8) (v : Bool) : MakesStep (.setdeb h v) s (execSetdeb h v s) := by
  unfold execSetdeb
  split
  · exact readThen_makes fun _ _ k => k.enters 3 _
  · exact writeThen_makes ((Keeps.refl s).raises _) fun _ k => k.responds .ok 0
  · refine withHandle_makes fun p => readThen_makes fun oe u k => ?_
    split
    · exact k.raises .invalidOperation
    · exact k.enters 2 _

theorem execBegin_makes (c : BitVec 8) : MakesStep (.beginTx c) s (execBegin c s) := by
  refine withLock_makes fun _ => ?_
  refine MicroStep.makes (.records rfl ?_ ?_ .ok 0)
  · rfl
  · exact Collection.Consistent.startRecording

theorem execGetpend_makes (h : BitVec 8) : MakesStep (.getpend h) s (execGetpend h s) := by
  refine withHandle_makes fun p => ?_
  split
  · exact withLock_makes fun _ => (Keeps.refl s).responds .ok _
  · exact (Keeps.refl s).raises .invalidOperation

theorem commitTake_makes (c : BitVec 8) (hm : s.mstep < 2) : MakesStep (.commit c) s (commitTake c s) :=
  withLock_makes fun hfree =>
    requireMap_makes (hout := commitAt_commit_first hm) fun _ k => (MicroStep.takes k rfl hm hfree _).makes

/-- A write of COMMIT leads to the next micro-step, where the port holds the lock as before; a bus error frees it. -/
theorem commitWrite_makes (c : BitVec 8) (hm : 2 ≤ s.mstep) (b : BankId) (d : Drive) :
    MakesStep (.commit c) s (commitWrite c b d s) := by
  refine writeThen_makes ?_ fun u k => k.enters _ _ ?_
  · refine MicroStep.makes (.releases rfl hm ?_ ?_ .transientIO 0)
    · rfl
    · exact id
  · have hu : u.mstep = s.mstep := by simp only [State.mstep, k.port]
    rw [hu, commitAt_commit_later hm, commitAt_commit_later (by omega)]

theorem commitRelease_makes (c : BitVec 8) (hm : 2 ≤ s.mstep) : MakesStep (.commit c) s (commitRelease c s) :=
  MicroStep.makes (.releases rfl hm rfl (fun _ => idle_consistent) .ok 0)

theorem execCommit_makes (c : BitVec 8) : MakesStep (.commit c) s (execCommit c s) := by
  unfold execCommit
  split
  next hm => exact commitTake_makes s c (by omega)
  next hm => exact commitTake_makes s c (by omega)
  next k hm =>
    split
    · exact commitWrite_makes s c (by omega) _ _
    · exact commitRelease_makes s c (by omega)

end

/-- A next state of any instruction's micro-step is one of the five cases. -/
theorem exec_microStep {i : Instr} {s t : State} (h : exec i s = .next t) : MicroStep i s t := by
  cases i with
  | mapopen => exact execMapopen_makes s t h
  | mapclose => exact execMapclose_makes s t h
  | regrd b r => exact execRegrd_makes s b r t h
  | regwr b r w => exact execRegwr_makes s b r w t h
  | pinnew h' ic coll num => exact execPinnew_makes s h' ic coll num t h
  | setstate h' v => exact execSetstate_makes s h' v t h
  | setimm h' v => exact execSetimm_makes s h' v t h
  | getstate h' => exact execGetstate_makes s h' t h
  | chkdir h' => exact execChkdir_makes s h' t h
  | setactlow h' v => exact execSetactlow_makes s h' v t h
  | setdeb h' v => exact execSetdeb_makes s h' v t h
  | beginTx c => exact execBegin_makes s c t h
  | commit c => exact execCommit_makes s c t h
  | getpend h' => exact execGetpend_makes s h' t h

end Sys2Proof.Machine
end

section
/-! PROOFS. The masks of the Collections and their locks: what each of the five cases of a micro-step does to them,
and so the two invariants of rules R18 and R19. -/

namespace Sys2Proof.Machine

/-! ### The masks (R18) -/

section
variable {s t u : State}

theorem MasksConsistent.of_coll (w : MasksConsistent s) (h : ∀ c, u.coll c = s.coll c) : MasksConsistent u :=
  fun c => (h c).symm ▸ w c

theorem MasksConsistent.of_colls (w : MasksConsistent s) (h : u.colls = s.colls) : MasksConsistent u :=
  w.of_coll fun c => by simp only [State.coll, h]

/-- Writing a Collection that is consistent if the one before it was keeps the masks consistent. -/
theorem MasksConsistent.setColl (w : MasksConsistent s) {c : Nat} {x : Collection}
    (hx : (s.coll c).Consistent → x.Consistent) : MasksConsistent (s.setColl c x) := fun d => by
  rw [setColl_coll]
  split
  · exact hx (w c)
  · exact w d

theorem MicroStep.masksConsistent {i : Instr} (m : MicroStep i s t) (w : MasksConsistent s) :
    MasksConsistent t := by
  cases m with
  | ends k => exact w.of_coll k.coll
  | stays k => exact w.of_coll k.coll
  | records _ _ hx => exact w.setColl hx
  | takes k => exact (w.of_coll k.coll).setColl id
  | releases _ _ _ hx => exact w.setColl hx

theorem runPort_masksConsistent (w : MasksConsistent s) (h : runPort s = .next t) : MasksConsistent t := by
  rcases runPort_next h with rfl | ⟨_, _, _, -, -, -, -, rfl⟩ | ⟨_, _, -, hexec, -⟩
  · exact w
  · exact w
  · exact (exec_microStep hexec).masksConsistent w

end

/-- Settles O50: a move of the host changes no Collection, and each case of a micro-step keeps them consistent. -/
theorem stepKeepsMasksConsistent : Obligations.StepKeepsMasksConsistent := by
  intro s t w h
  rcases step_next h with ⟨m, ts, -, rfl⟩ | ⟨p, -, hrun⟩
  · obtain ⟨-, -, -, hcolls, -⟩ := hostMove_block { s with turns := ts } m
    exact w.of_colls hcolls
  · exact runPort_masksConsistent (s := s.taking p) w hrun

/-! ### The COMMIT that a port is inside -/

/-- The Collection whose COMMIT the port stands inside, if it does. -/
def Port.commitOf (q : Port) : Option Nat := q.flight.bind fun f => commitAt f.instr f.mstep

/-- The Collection whose COMMIT port `p` stands inside, if there is such a port and it does. -/
def State.commitOf (s : State) (p : Nat) : Option Nat := (s.ports[p]?).bind Port.commitOf

theorem commitAt_eq_some {i : Instr} {n c : Nat} :
    commitAt i n = some c ↔ ∃ x : BitVec 8, i = .commit x ∧ x.toNat = c ∧ 2 ≤ n := by
  cases i with
  | commit x =>
    simp only [commitAt, Instr.commit.injEq, exists_eq_left']
    split <;> simp_all
  | _ => simp [commitAt]

theorem insideCommit_iff (s : State) (p c : Nat) : s.insideCommit p c ↔ s.commitOf p = some c := by
  simp only [State.insideCommit, State.commitOf, Port.commitOf, Option.bind_eq_some_iff, commitAt_eq_some]
  constructor
  · rintro ⟨q, f, x, hq, hf, hi, hx, hm⟩
    exact ⟨q, hq, f, hf, x, hi, hx, hm⟩
  · rintro ⟨q, hq, f, hf, x, hi, hx, hm⟩
    exact ⟨q, f, x, hq, hf, hi, hx, hm⟩

theorem lockMatchesCommit_iff (s : State) : LockMatchesCommit s ↔
    ∀ c p, c < s.colls.length → ((s.coll c).lock = .held p ↔ s.commitOf p = some c) := by
  simp only [LockMatchesCommit, insideCommit_iff]

section
variable {s u : State}

/-- Writing the port of the turn says anew what COMMIT it is inside, and leaves the other ports in theirs. -/
theorem commitOf_setPort (hports : u.ports = s.ports) (hturn : u.turn = s.turn)
    (hlt : s.turn.port < s.ports.length) (q : Port) (p : Nat) :
    (u.setPort q).commitOf p = if p = s.turn.port then q.commitOf else s.commitOf p := by
  split
  next hp =>
    subst hp
    simp [State.commitOf, hports, hturn, hlt]
  next hp => simp [State.commitOf, hports, hturn, Ne.symm hp]

/-- Writing the port of the turn with one inside the same COMMIT leaves every port in its. -/
theorem commitOf_setPort_same (hports : u.ports = s.ports) (hturn : u.turn = s.turn)
    (hlt : s.turn.port < s.ports.length) {q : Port} (hq : q.commitOf = s.commitOf s.turn.port) (p : Nat) :
    (u.setPort q).commitOf p = s.commitOf p := by
  rw [commitOf_setPort hports hturn hlt]
  split
  next hp => rw [hq, hp]
  next => rfl

/-- A port that runs an instruction is inside the COMMIT that its micro-step is in; one that begins a command is
inside none. -/
theorem commitOf_running {p : Port} {i : Instr} (hp : s.ports[s.turn.port]? = some p)
    (hi : (∃ f, p.flight = some f ∧ f.instr = i) ∨ p.flight = none) :
    s.commitOf s.turn.port = commitAt i s.mstep := by
  rcases hi with ⟨f, hf, rfl⟩ | hf
  · simp [State.commitOf, Port.commitOf, hp, hf, mstep_of_flight hp hf]
  · have hone : commitAt i 1 = none := by cases i <;> rfl
    simp [State.commitOf, Port.commitOf, hp, hf, mstep_of_no_flight hp hf, hone]

end

/-! ### The lock (R19, R48) -/

section
variable {s t u : State} {c n : Nat}

/-- Where every lock is as before, and every port is inside the COMMIT that it was inside, they agree as before. -/
theorem LockMatchesCommit.congr (w : LockMatchesCommit s) (hlen : u.colls.length = s.colls.length)
    (hlock : ∀ d, (u.coll d).lock = (s.coll d).lock)
    (hin : ∀ p, u.commitOf p = s.commitOf p) : LockMatchesCommit u := by
  rw [lockMatchesCommit_iff] at w ⊢
  intro d p hd
  rw [hlock, hin]
  exact w d p (hlen ▸ hd)

/-- Port `n` takes the free lock of Collection `c` as it goes inside a COMMIT of it. -/
theorem LockMatchesCommit.take (w : LockMatchesCommit s) (hfree : (s.coll c).lock = .free)
    (hout : s.commitOf n = none) (hlen : u.colls.length = s.colls.length)
    (hlock : ∀ d, d < s.colls.length → (u.coll d).lock = if c = d then .held n else (s.coll d).lock)
    (hin : ∀ p, u.commitOf p = if p = n then some c else s.commitOf p) : LockMatchesCommit u := by
  rw [lockMatchesCommit_iff] at w ⊢
  intro d p hd
  rw [hlen] at hd
  rw [hlock d hd, hin p]
  by_cases hp : p = n
  · subst hp
    have hnot : (s.coll d).lock ≠ .held p := fun h => by simpa [hout] using (w d p hd).1 h
    by_cases hcd : c = d <;> simp [hcd, hnot]
  · rw [if_neg hp, ← w d p hd]
    by_cases hcd : c = d
    · subst hcd
      simp [hfree, Ne.symm hp]
    · simp [hcd]

/-- Port `n` frees the lock of Collection `c` as it leaves its COMMIT. -/
theorem LockMatchesCommit.release (w : LockMatchesCommit s) (hinside : s.commitOf n = some c)
    (hlen : u.colls.length = s.colls.length)
    (hlock : ∀ d, d < s.colls.length → (u.coll d).lock = if c = d then .free else (s.coll d).lock)
    (hin : ∀ p, u.commitOf p = if p = n then none else s.commitOf p) : LockMatchesCommit u := by
  rw [lockMatchesCommit_iff] at w ⊢
  intro d p hd
  rw [hlen] at hd
  rw [hlock d hd, hin p]
  by_cases hp : p = n
  · subst hp
    have hnot : c ≠ d → (s.coll d).lock ≠ .held p := fun hcd h =>
      hcd (by simpa [hinside] using (w d p hd).1 h)
    by_cases hcd : c = d
    · simp [hcd]
    · simp [hcd, hnot hcd]
  · rw [if_neg hp, ← w d p hd]
    by_cases hcd : c = d
    · subst hcd
      have hheld : (s.coll c).lock = .held n := (w c n hd).2 hinside
      simp [hheld, Ne.symm hp]
    · simp [hcd]

/-- What a write of Collection `c` makes of the locks of the Collections that exist. -/
theorem setColl_lock (s : State) (c : Nat) (x : Collection) {d : Nat} (hd : d < s.colls.length) :
    ((s.setColl c x).coll d).lock = if c = d then x.lock else (s.coll d).lock := by
  rw [setColl_coll]
  by_cases h : c = d
  · subst h
    rw [if_pos ⟨rfl, hd⟩, if_pos rfl]
  · rw [if_neg fun hh => h hh.1, if_neg h]

/-- A Collection written with the lock that it had leaves every lock as it was. -/
theorem setColl_lock_same {x : Collection} (hx : x.lock = (s.coll c).lock) (d : Nat) :
    ((s.setColl c x).coll d).lock = (s.coll d).lock := by
  rw [setColl_coll]
  split
  next h => rw [hx, h.1]
  next => rfl

/-- `hrun` says where the port of the turn stands, which a micro-step alone does not know. -/
theorem MicroStep.lockMatchesCommit {i : Instr} (m : MicroStep i s t) (w : LockMatchesCommit s)
    (hlt : s.turn.port < s.ports.length) (hrun : s.commitOf s.turn.port = commitAt i s.mstep) :
    LockMatchesCommit t := by
  cases m with
  | ends k hout =>
    exact w.congr (congrArg List.length k.colls) (fun d => congrArg Collection.lock (k.coll d))
      (commitOf_setPort_same k.ports k.turn hlt (hrun.trans hout).symm)
  | stays k hn =>
    exact w.congr (congrArg List.length k.colls) (fun d => congrArg Collection.lock (k.coll d))
      (commitOf_setPort_same k.ports k.turn hlt (hn.trans hrun.symm))
  | records hout hlock =>
    exact w.congr (by simp) (setColl_lock_same hlock)
      (commitOf_setPort_same (u := s.setColl _ _) rfl rfl hlt (hrun.trans hout).symm)
  | @takes u k c hi hm hfree x =>
    subst hi
    refine w.take hfree (hrun.trans (commitAt_commit_first hm)) (by simp [k.colls]) (fun d hd => ?_)
      (commitOf_setPort (u := u.setLock _ _) k.ports k.turn hlt _)
    rw [← k.colls] at hd
    rw [← k.coll d, ← k.turn]
    exact setColl_lock u _ _ hd
  | @releases c hi hm x hfree hx st v =>
    subst hi
    refine w.release (hrun.trans (commitAt_commit_later hm)) (by simp) (fun d hd => ?_)
      (commitOf_setPort (u := s.setColl _ _) rfl rfl hlt _)
    rw [← hfree]
    exact setColl_lock s _ x hd

/-- A port's turn keeps the locks in step with the COMMITs. -/
theorem runPort_lockMatchesCommit (w : LockMatchesCommit s) (h : runPort s = .next t) : LockMatchesCommit t := by
  rcases runPort_next h with rfl | ⟨p, c, e, hp, hf, -, -, rfl⟩ | ⟨p, i, hp, hexec, hi⟩
  · exact w
  · obtain ⟨hlt, -⟩ := List.getElem?_eq_some_iff.1 hp
    have hout : s.commitOf s.turn.port = none := by simp [State.commitOf, Port.commitOf, hp, hf]
    exact w.congr rfl (fun _ => rfl) (commitOf_setPort_same rfl rfl hlt hout.symm)
  · obtain ⟨hlt, -⟩ := List.getElem?_eq_some_iff.1 hp
    exact (exec_microStep hexec).lockMatchesCommit w hlt
      (commitOf_running hp (hi.imp_right fun hpresents => hpresents.1))

end

/-- Settles O51: a move of the host changes no Collection and no port, and each case of a micro-step changes a
lock only as its port goes inside a COMMIT or leaves it. -/
theorem stepKeepsLockMatchesCommit : Obligations.StepKeepsLockMatchesCommit := by
  intro s t w h
  rcases step_next h with ⟨m, ts, -, rfl⟩ | ⟨p, -, hrun⟩
  · obtain ⟨-, -, -, hcolls, hports, -⟩ := hostMove_block { s with turns := ts } m
    exact w.congr (congrArg List.length hcolls) (fun d => by simp only [State.coll, hcolls])
      fun p => by simp only [State.commitOf, hports]
  · exact runPort_lockMatchesCommit (s := s.taking p) w hrun

end Sys2Proof.Machine
end

section
/-! PROOFS. What a step leaves of the parameters, the sizes, the clocks and the ports, and what a run does to a port:
its responses are those of the commands that it finished. -/

namespace Sys2Proof.Machine

/-! ### A turn and its port -/

/-- `t` is `s` after a turn of a port, which stands as `q` then. -/
structure Turned (s t : State) (q : Port) : Prop where
  cfg : t.cfg = s.cfg
  turn : t.turn = s.turn
  slots : t.pins.length = s.pins.length
  collections : t.colls.length = s.colls.length
  ports : t.ports = s.ports.set s.turn.port q
  clocks : ∀ b, (s.bank b).clkEn = true → (t.bank b).clkEn = true

/-- Rules R20 and R105 of one port: from `p` to `q` its command of instruction `i` has ended, or is in flight. -/
def Port.EndsOrStays (i : Instr) (p q : Port) : Prop :=
  q.prog = p.prog ∧
  ((q.idx = p.idx + 1 ∧ q.flight = none) ∨
    (q.idx = p.idx ∧ q.rsp = p.rsp ∧ ∃ f, q.flight = some f ∧ f.instr = i))

/-- From `p` to `q` the port has been given the responses `rs`, one for each command it finished, and holds the last
of them (R20, R25, R142). -/
def Port.Answered (p : Port) (rs : List Response) (q : Port) : Prop :=
  q.prog = p.prog ∧ q.idx = p.idx + rs.length ∧ q.rsp = rs.getLastD p.rsp

/-- What one step makes of a port: it answers nothing, or the response that the index has passed. -/
def Port.Advanced (p q : Port) : Prop := p.Answered (if p.idx < q.idx then [q.rsp] else []) q

section
variable {p q r : Port} {i : Instr}

theorem endsOrStays_ends (p : Port) (i : Instr) (x : Response) :
    p.EndsOrStays i { p with idx := p.idx + 1, flight := none, rsp := x } :=
  ⟨rfl, .inl ⟨rfl, rfl⟩⟩

theorem endsOrStays_stays (p : Port) (i : Instr) (n : Nat) (x : Temps) :
    p.EndsOrStays i { p with flight := some ⟨i, n, x⟩ } :=
  ⟨rfl, .inr ⟨rfl, rfl, _, rfl, rfl⟩⟩

theorem Port.Answered.trans {rs rs' : List Response} (h : p.Answered rs q) (h' : q.Answered rs' r) :
    p.Answered (rs ++ rs') r := by
  obtain ⟨hprog, hidx, hrsp⟩ := h
  obtain ⟨hprog', hidx', hrsp'⟩ := h'
  refine ⟨hprog'.trans hprog, ?_, ?_⟩
  · rw [hidx', hidx, List.length_append, Nat.add_assoc]
  · rw [hrsp', hrsp]
    simp [List.getLast?_append]

theorem Port.Advanced.refl (p : Port) : p.Advanced p := by
  simp [Port.Advanced, Port.Answered]

theorem Port.EndsOrStays.advanced (h : p.EndsOrStays i q) : p.Advanced q := by
  obtain ⟨hprog, ⟨hidx, -⟩ | ⟨hidx, hrsp, -⟩⟩ := h
  · have hlt : p.idx < q.idx := by omega
    rw [Port.Advanced, if_pos hlt]
    exact ⟨hprog, hidx, rfl⟩
  · have hnot : ¬p.idx < q.idx := by omega
    rw [Port.Advanced, if_neg hnot]
    exact ⟨hprog, hidx, hrsp⟩

end

/-! ### The turn of a port -/

section
variable {s t u : State} {q : Port} {i : Instr}

/-- A turn with no effect: writing the port of the turn over itself changes nothing, even if it does not exist. -/
theorem turned_self (s : State) : Turned s s s.port := by
  refine ⟨rfl, rfl, rfl, rfl, ?_, fun _ => id⟩
  by_cases hlt : s.turn.port < s.ports.length
  · exact (set_of_getElem? (port_eq_getElem? s hlt)).symm
  · exact (List.set_eq_of_length_le (Nat.le_of_not_lt hlt)).symm

theorem Keeps.turned (k : Keeps s u) (q : Port) : Turned s (u.setPort q) q :=
  ⟨k.cfg, k.turn, k.slots, congrArg List.length k.colls, by simp [k.ports, k.turn], k.clocks⟩

theorem Keeps.turned_setColl (k : Keeps s u) (c : Nat) (x : Collection) (q : Port) :
    Turned s ((u.setColl c x).setPort q) q :=
  ⟨k.cfg, k.turn, k.slots, by simp [k.colls], by simp [k.ports, k.turn], k.clocks⟩

theorem Turned.port (h : Turned s t q) (hlt : s.turn.port < s.ports.length) : t.port = q := by
  simp [State.port, h.turn, h.ports, hlt]

/-- Each case of a micro-step ends the command of its port, or leaves it in flight. -/
theorem MicroStep.turned (m : MicroStep i s t) : ∃ q, Turned s t q ∧ s.port.EndsOrStays i q := by
  cases m with
  | ends k => exact ⟨_, k.turned _, k.port ▸ endsOrStays_ends _ i _⟩
  | stays k => exact ⟨_, k.turned _, k.port ▸ endsOrStays_stays _ i _ _⟩
  | records => exact ⟨_, (Keeps.refl s).turned_setColl _ _ _, endsOrStays_ends s.port i _⟩
  | takes k => exact ⟨_, k.turned_setColl _ _ _, k.port ▸ endsOrStays_stays _ i _ _⟩
  | releases => exact ⟨_, (Keeps.refl s).turned_setColl _ _ _, endsOrStays_ends s.port i _⟩

theorem runPort_turned (h : runPort s = .next t) : ∃ q, Turned s t q ∧ s.port.Advanced q := by
  rcases runPort_next h with rfl | ⟨_, _, _, -, -, -, -, rfl⟩ | ⟨_, i, -, hexec, -⟩
  · exact ⟨_, turned_self t, .refl _⟩
  · exact ⟨_, (Keeps.refl s).turned _, (endsOrStays_ends s.port .mapopen _).advanced⟩
  · obtain ⟨q, hturned, hq⟩ := (exec_microStep hexec).turned
    exact ⟨q, hturned, hq.advanced⟩

/-- What a port becomes in a turn, its own or another's. -/
theorem Turned.advanced (h : Turned s t q) (hq : s.port.Advanced q) {n : Nat} {p : Port}
    (hp : s.ports[n]? = some p) : ∃ q, t.ports[n]? = some q ∧ p.Advanced q := by
  obtain ⟨hlt, -⟩ := List.getElem?_eq_some_iff.1 hp
  rw [h.ports]
  by_cases hn : s.turn.port = n
  · subst hn
    exact ⟨q, List.getElem?_set_self hlt, port_of_getElem? hp ▸ hq⟩
  · exact ⟨p, (List.getElem?_set_ne hn).trans hp, .refl p⟩

end

/-! ### The step -/

/-- What every step keeps, and how far it takes each port. -/
structure StepKeeps (s t : State) : Prop where
  cfg : t.cfg = s.cfg
  slots : t.pins.length = s.pins.length
  collections : t.colls.length = s.colls.length
  requesters : t.ports.length = s.ports.length
  clocks : ∀ b, (s.bank b).clkEn = true → (t.bank b).clkEn = true
  others : ∀ n, s.nextPort ≠ some n → t.ports[n]? = s.ports[n]?
  advanced : ∀ {n : Nat} {p : Port}, s.ports[n]? = some p → ∃ q, t.ports[n]? = some q ∧ p.Advanced q

/-- No move of the host stops a clock (R29, log 20). -/
theorem hostMove_clkEn (s : State) (m : HostMove) (b : BankId) (h : (s.bank b).clkEn = true) :
    ((s.hostMove m).bank b).clkEn = true := by
  cases m with
  | drivePads d w => exact setBank_clkEn (x := { s.bank d with padIn := w }) id b h
  | setDirections d w => exact setBank_clkEn (x := { s.bank d with oe := w }) id b h
  | startClock d => exact (keeps_startClock s d).clocks b h

theorem step_keeps {s t : State} (h : step s = .next t) : StepKeeps s t := by
  rcases step_next h with ⟨m, ts, -, rfl⟩ | ⟨p, hnext, hrun⟩
  · obtain ⟨hcfg, -, hpins, hcolls, hports, -⟩ := hostMove_block { s with turns := ts } m
    exact {
      cfg := hcfg
      slots := congrArg List.length hpins
      collections := congrArg List.length hcolls
      requesters := congrArg List.length hports
      clocks := hostMove_clkEn { s with turns := ts } m
      others := fun n _ => congrArg (·[n]?) hports
      advanced := fun {n p} hp => ⟨p, (congrArg (·[n]?) hports).trans hp, .refl p⟩ }
  · obtain ⟨q, hturned, hq⟩ := runPort_turned hrun
    exact {
      cfg := hturned.cfg
      slots := hturned.slots
      collections := hturned.collections
      requesters := by simp [hturned.ports]
      clocks := hturned.clocks
      others := fun n hn => by
        have hne : p.port ≠ n := fun heq => hn (by simp [State.nextPort, hnext, heq])
        simp [hturned.ports, hne]
      advanced := hturned.advanced hq }

/-- Settles O58. -/
theorem stepKeepsParametersAndClocks : Obligations.StepKeepsParametersAndClocks := by
  intro s t h
  have k := step_keeps h
  refine ⟨k.cfg, k.slots, k.collections, k.requesters, fun n p q hp hq => ?_, k.clocks, k.others⟩
  obtain ⟨q', hq', hprog, -⟩ := k.advanced hp
  cases hq.symm.trans hq'
  exact hprog

/-! ### The run -/

theorem delivered_eq {n : Nat} {s t : State} {p q : Port} (hp : s.ports[n]? = some p) (hq : t.ports[n]? = some q) :
    delivered n s t = if p.idx < q.idx then [q.rsp] else [] := by
  simp [delivered, hp, hq]

/-- Over a run a port is given one response for each command that it finishes. -/
theorem run_answered {n p : Nat} {s t : State} {a : Port} (h : Host.Core.run Sys2Proof.core n s = .next t)
    (ha : s.ports[p]? = some a) : ∃ b, t.ports[p]? = some b ∧ a.Answered (responses p n s) b := by
  induction n generalizing s a with
  | zero =>
    cases h
    exact ⟨a, ha, rfl, rfl, rfl⟩
  | succ n ih =>
    obtain ⟨u, hstep, hrest⟩ := run_succ_next h
    obtain ⟨m, hm, hfirst⟩ := (step_keeps hstep).advanced ha
    obtain ⟨b, hb, hlater⟩ := ih hrest hm
    rw [responses_succ hstep, delivered_eq ha hm]
    exact ⟨b, hb, hfirst.trans hlater⟩

/-- Settles O9, a run by induction on its steps. -/
theorem microStepEndsOrStaysInFlight : Obligations.MicroStepEndsOrStaysInFlight := by
  refine ⟨fun i s t hlt h => ?_, fun n s t p a h ha => ?_⟩
  · obtain ⟨q, hturned, hq⟩ := (exec_microStep h).turned
    rw [hturned.port hlt]
    exact hq
  · obtain ⟨b, hb, hprog, hidx, hrsp⟩ := run_answered h ha
    refine ⟨b, hb, hprog, hidx, fun hnone => ?_, fun r hr => ?_, fun hzero hfin => ?_⟩
    · simpa [hnone] using hrsp
    · simpa [hr] using hrsp
    · obtain ⟨hend, -⟩ : b.idx = b.prog.length ∧ b.flight = none := by simpa [Port.finished] using hfin
      rw [← hprog, ← hend, hidx, hzero, Nat.zero_add]

end Sys2Proof.Machine
end

section
/-! PROOFS. When a micro-step waits for a lock (R48), and when it is refused (R35). -/

namespace Sys2Proof.Machine

/-! ### Waiting for a lock -/

section
variable {s : State} {i : Instr}

theorem withLock_held {c p : Nat} (hlock : (s.coll c).lock = .held p) (k : Collection → Result) :
    s.withLock i c k = .next (s.hold i) := by
  simp only [State.withLock, hlock]

theorem withHandle_valid {h : BitVec 8} (hvalid : (s.pin h).valid = true) (k : Pin → Result) :
    s.withHandle h k = k (s.pin h) := if_pos hvalid

theorem execBegin_held {c : BitVec 8} {p : Nat} (hlock : (s.coll c.toNat).lock = .held p) :
    execBegin c s = .next (s.hold (.beginTx c)) := withLock_held hlock _

theorem execCommit_first (c : BitVec 8) (hm : s.mstep = 1) : execCommit c s = commitTake c s := by
  simp only [execCommit, hm]

/-- M1 of SETSTATE on a pin of a Collection (R87). -/
theorem execSetstate_first_batch {h : BitVec 8} (v : Bool) (hm : s.mstep = 1) (hvalid : (s.pin h).valid = true)
    (hic : (s.pin h).ic = true) : execSetstate h v s = setstateBatch h v (s.pin h) s := by
  simp only [execSetstate, hm, withHandle_valid hvalid, hic, if_true]

theorem execGetpend_batch {h : BitVec 8} (hvalid : (s.pin h).valid = true) (hic : (s.pin h).ic = true) :
    execGetpend h s = s.withLock (.getpend h) (s.pin h).coll.toNat fun x =>
      .next (s.respond .ok (x.pending (s.pin h))) := by
  simp only [execGetpend, withHandle_valid hvalid, hic, if_true]

end

/-- Settles O41: each of the four micro-steps is a locked one. -/
theorem lockedMicroStepsWait : Obligations.LockedMicroStepsWait := by
  refine fun s p => ⟨fun c hlock => ?beginTx, fun c hlock hm => ?commit,
    fun h v hvalid hic hm hlock => ?setstate, fun h hvalid hic hlock => ?getpend⟩
  case beginTx => exact execBegin_held hlock
  case commit => exact (execCommit_first c hm).trans (withLock_held hlock _)
  case setstate => exact (execSetstate_first_batch v hm hvalid hic).trans (withLock_held hlock _)
  case getpend => exact (execGetpend_batch hvalid hic).trans (withLock_held hlock _)

/-! ### One rule on refusals for each shared operation -/

/-- The result is a next state or a fault. -/
def NeverRefuses (x : Result) : Prop := ∀ r, x ≠ .refused r

theorem next_neverRefuses (s : State) : NeverRefuses (.next s) := fun _ => nofun

theorem fault_neverRefuses (f : Fault) : NeverRefuses (.fault f) := fun _ => nofun

/-- DATAIN is the one register whose write has no defined effect (R34, R35). -/
theorem write_eq_none_iff {k : Bank} {r : Reg} {v : Word} : k.write r v = none ↔ r = .dataIn := by
  cases r <;> simp [Bank.write]

section
variable {s : State} {i : Instr} {b : BankId} {g : Reg}

theorem readThen_neverRefuses {k : Word → State → Result} (hk : ∀ w u, NeverRefuses (k w u)) :
    NeverRefuses (s.readThen i b g k) := by
  unfold State.readThen
  split
  · exact fault_neverRefuses _
  · exact next_neverRefuses _
  · exact next_neverRefuses _
  · exact hk _ _

/-- A write is refused exactly when it goes through and is to DATAIN. -/
theorem writeThen_refused_iff {v : Word} {e : State → State} {k : State → Result} {r : Refusal}
    (hk : ∀ u, NeverRefuses (k u)) :
    s.writeThen i b g v e k = .refused r ↔ r = .dataInWrite ∧ g = .dataIn ∧ s.Accessible b := by
  by_cases ha : s.Accessible b
  · simp only [State.writeThen, gate_of_accessible ha]
    cases hw : (s.bank b).write g v with
    | none => simp [write_eq_none_iff.1 hw, ha, eq_comm]
    | some x =>
      have hg : g ≠ .dataIn := fun hg => by simp [write_eq_none_iff.2 hg] at hw
      simp [hk _ r, hg]
  · have hgate : s.gate b ≠ .pass := fun h => ha (accessible_of_gate h)
    unfold State.writeThen
    split <;> simp_all

theorem writeThen_neverRefuses (hg : g ≠ .dataIn) {v : Word} {e : State → State} {k : State → Result}
    (hk : ∀ u, NeverRefuses (k u)) : NeverRefuses (s.writeThen i b g v e k) := fun _ h =>
  have ⟨_, hdataIn, _⟩ := (writeThen_refused_iff hk).1 h
  hg hdataIn

theorem writePhys_neverRefuses (m : Word) (p : Bool) : NeverRefuses (s.writePhys i b m p) :=
  writeThen_neverRefuses (by cases p <;> simp) fun _ => next_neverRefuses _

theorem requireMap_neverRefuses {k : State → Result} (hk : ∀ u, NeverRefuses (k u)) :
    NeverRefuses (s.requireMap k) := by
  unfold State.requireMap
  split
  · exact next_neverRefuses _
  · exact fault_neverRefuses _
  · exact hk _
  · exact hk _

theorem withHandle_neverRefuses {h : BitVec 8} {k : Pin → Result} (hk : ∀ p, NeverRefuses (k p)) :
    NeverRefuses (s.withHandle h k) := by
  unfold State.withHandle
  split
  · exact hk _
  · exact next_neverRefuses _

theorem withLock_neverRefuses {c : Nat} {k : Collection → Result} (hk : ∀ x, NeverRefuses (k x)) :
    NeverRefuses (s.withLock i c k) := by
  unfold State.withLock
  split
  · exact hk _
  · exact next_neverRefuses _

end

/-! ### The instructions, family by family -/

section
variable (s : State)

theorem execMapopen_neverRefuses : NeverRefuses (execMapopen s) := by
  unfold execMapopen
  split
  · split <;> exact next_neverRefuses _
  all_goals exact next_neverRefuses _

theorem execMapclose_neverRefuses : NeverRefuses (execMapclose s) := by
  unfold execMapclose
  split <;> exact next_neverRefuses _

theorem execRegrd_neverRefuses (b : BankId) (g : Reg) : NeverRefuses (execRegrd b g s) := by
  unfold execRegrd
  split
  · exact readThen_neverRefuses fun _ _ => next_neverRefuses _
  · exact requireMap_neverRefuses fun _ => next_neverRefuses _

/-- The access stands at the second micro-step (R70). -/
theorem execRegwr_refused_iff {b : BankId} {g : Reg} {w : Word} {r : Refusal} :
    execRegwr b g w s = .refused r ↔ r = .dataInWrite ∧ g = .dataIn ∧ s.mstep = 2 ∧ s.Accessible b := by
  unfold execRegwr
  split
  next hm => simp [writeThen_refused_iff fun _ => next_neverRefuses _, hm]
  next hm =>
    have hfirst := requireMap_neverRefuses (s := s)
      (fun u => next_neverRefuses (u.enter (.regwr b g w) 2 Temps.none)) r
    exact ⟨fun h => absurd h hfirst, fun ⟨_, _, hstep, _⟩ => absurd hstep hm⟩

theorem execPinnew_neverRefuses (h : BitVec 8) (ic : Bool) (coll : BitVec 7) (num : BitVec 8) :
    NeverRefuses (execPinnew h ic coll num s) := by
  unfold execPinnew
  split
  · split <;> exact next_neverRefuses _
  · exact next_neverRefuses _
  · split
    · exact next_neverRefuses _
    · exact requireMap_neverRefuses fun _ => next_neverRefuses _

theorem setstateBatch_neverRefuses (h : BitVec 8) (v : Bool) (p : Pin) :
    NeverRefuses (setstateBatch h v p s) := by
  refine withLock_neverRefuses fun x => ?_
  split <;> exact next_neverRefuses _

theorem execSetstate_neverRefuses (h : BitVec 8) (v : Bool) : NeverRefuses (execSetstate h v s) := by
  unfold execSetstate
  split
  · exact writePhys_neverRefuses _ _
  · refine withHandle_neverRefuses fun p => ?_
    split
    · exact setstateBatch_neverRefuses s h v p
    · exact writePhys_neverRefuses _ _

theorem execSetimm_neverRefuses (h : BitVec 8) (v : Bool) : NeverRefuses (execSetimm h v s) :=
  withHandle_neverRefuses fun _ => writePhys_neverRefuses _ _

theorem readDirection_neverRefuses (i : Instr) (h : BitVec 8) : NeverRefuses (readDirection i h s) :=
  withHandle_neverRefuses fun _ => readThen_neverRefuses fun _ _ => next_neverRefuses _

theorem execGetstate_neverRefuses (h : BitVec 8) : NeverRefuses (execGetstate h s) := by
  unfold execGetstate
  split
  · exact readThen_neverRefuses fun _ _ => next_neverRefuses _
  · exact readDirection_neverRefuses s _ h

theorem execChkdir_neverRefuses (h : BitVec 8) : NeverRefuses (execChkdir h s) :=
  withHandle_neverRefuses fun _ => readThen_neverRefuses fun _ _ => next_neverRefuses _

theorem execSetactlow_neverRefuses (h : BitVec 8) (v : Bool) : NeverRefuses (execSetactlow h v s) := by
  unfold execSetactlow
  split
  · exact readThen_neverRefuses fun _ _ => next_neverRefuses _
  · split <;> exact next_neverRefuses _
  · exact writePhys_neverRefuses _ _
  · exact readDirection_neverRefuses s _ h

theorem execSetdeb_neverRefuses (h : BitVec 8) (v : Bool) : NeverRefuses (execSetdeb h v s) := by
  unfold execSetdeb
  split
  · exact readThen_neverRefuses fun _ _ => next_neverRefuses _
  · exact writeThen_neverRefuses (by simp) fun _ => next_neverRefuses _
  · refine withHandle_neverRefuses fun p => readThen_neverRefuses fun oe u => ?_
    split <;> exact next_neverRefuses _

theorem execBegin_neverRefuses (c : BitVec 8) : NeverRefuses (execBegin c s) :=
  withLock_neverRefuses fun _ => next_neverRefuses _

theorem commitTake_neverRefuses (c : BitVec 8) : NeverRefuses (commitTake c s) :=
  withLock_neverRefuses fun _ => requireMap_neverRefuses fun _ => next_neverRefuses _

/-- A commit writes only SET and CLEAR (R88). -/
theorem commitWrite_neverRefuses (c : BitVec 8) (b : BankId) (d : Drive) :
    NeverRefuses (commitWrite c b d s) :=
  writeThen_neverRefuses (by cases d <;> simp [driveRegister]) fun _ => next_neverRefuses _

theorem execCommit_neverRefuses (c : BitVec 8) : NeverRefuses (execCommit c s) := by
  unfold execCommit
  split
  · exact commitTake_neverRefuses s c
  · exact commitTake_neverRefuses s c
  · split
    · exact commitWrite_neverRefuses s c _ _
    · exact next_neverRefuses _

theorem execGetpend_neverRefuses (h : BitVec 8) : NeverRefuses (execGetpend h s) := by
  refine withHandle_neverRefuses fun p => ?_
  split
  · exact withLock_neverRefuses fun _ => next_neverRefuses _
  · exact next_neverRefuses _

end

/-- Every instruction but REGWR is given a meaning wherever it does not fault. -/
theorem exec_neverRefuses {i : Instr} (hi : ∀ b g w, i ≠ .regwr b g w) (s : State) :
    NeverRefuses (exec i s) := by
  cases i with
  | mapopen => exact execMapopen_neverRefuses s
  | mapclose => exact execMapclose_neverRefuses s
  | regrd b g => exact execRegrd_neverRefuses s b g
  | regwr b g w => exact absurd rfl (hi b g w)
  | pinnew h ic coll num => exact execPinnew_neverRefuses s h ic coll num
  | setstate h v => exact execSetstate_neverRefuses s h v
  | setimm h v => exact execSetimm_neverRefuses s h v
  | getstate h => exact execGetstate_neverRefuses s h
  | chkdir h => exact execChkdir_neverRefuses s h
  | setactlow h v => exact execSetactlow_neverRefuses s h v
  | setdeb h v => exact execSetdeb_neverRefuses s h v
  | beginTx c => exact execBegin_neverRefuses s c
  | commit c => exact execCommit_neverRefuses s c
  | getpend h => exact execGetpend_neverRefuses s h

/-- Settles O40: of REGWR by its access, and no other instruction is ever refused. -/
theorem refusalExactlyForDataIn : Obligations.RefusalExactlyForDataIn := by
  intro i s r
  constructor
  · intro h
    by_cases hi : ∃ b g w, i = .regwr b g w
    · obtain ⟨b, g, w, rfl⟩ := hi
      obtain ⟨hr, rfl, hm, ha⟩ := (execRegwr_refused_iff s).1 h
      exact ⟨hr, b, w, rfl, hm, ha⟩
    · exact absurd h (exec_neverRefuses (fun b g w heq => hi ⟨b, g, w, heq⟩) s r)
  · rintro ⟨rfl, b, w, rfl, hm, ha⟩
    exact (execRegwr_refused_iff s).2 ⟨rfl, rfl, hm, ha⟩

end Sys2Proof.Machine
end

section
/-! PROOFS. The frames of the commands that read, and of REGWR: what each micro-step leaves as it was. -/

namespace Sys2Proof.Machine

/-! ### Only the port -/

/-- A port written with the command list that it had. -/
theorem onlyPort_setPort {s : State} {q : Port} (h : q.prog = s.port.prog) : s.onlyPort (s.setPort q) := ⟨q, h, rfl⟩

theorem onlyPort_respond (s : State) (st : Status) (v : Word) : s.onlyPort (s.respond st v) := onlyPort_setPort rfl

theorem onlyPort_raise (s : State) (st : Status) : s.onlyPort (s.raise st) := onlyPort_respond s st 0

theorem onlyPort_enter (s : State) (i : Instr) (n : Nat) (x : Temps) : s.onlyPort (s.enter i n x) :=
  onlyPort_setPort rfl

theorem onlyPort_hold (s : State) (i : Instr) : s.onlyPort (s.hold i) := onlyPort_enter s i _ _

theorem State.onlyPort.cfg {s t : State} (h : s.onlyPort t) : t.cfg = s.cfg := by
  obtain ⟨_, -, rfl⟩ := h
  rfl

theorem State.onlyPort.banks {s t : State} (h : s.onlyPort t) : t.banks = s.banks := by
  obtain ⟨_, -, rfl⟩ := h
  rfl

/-! ### What the shared operations leave -/

theorem afterRead_draws (s : State) (r : Reg) :
    ∃ d, s.afterRead r = { s with draws := d } ∧ (r ≠ .set → r ≠ .clear → d = s.draws) := by
  cases r with
  | set => exact ⟨_, rfl, fun h => absurd rfl h⟩
  | clear => exact ⟨_, rfl, fun _ h => absurd rfl h⟩
  | _ => exact ⟨_, rfl, fun _ _ => rfl⟩

/-- A read of a register that holds a level uses up no draw. -/
theorem afterRead_levelRegister (s : State) (d : Direction) : s.afterRead (levelRegister d) = s := by
  cases d <;> rfl

theorem lazyOpen_map (s : State) :
    ∃ m, s.lazyOpen = { s with map := m } ∧ (s.map ≠ .unopened → m = s.map) := by
  by_cases h : s.map = .unopened
  · exact ⟨_, lazyOpen_of_unopened h, fun hne => absurd h hne⟩
  · exact ⟨s.map, lazyOpen_of_ne h, fun _ => rfl⟩

/-- A micro-step that is `RequireMap` alone changes nothing but the port and, on its first use, the map. -/
theorem requireMap_enter_onlyPort {s t : State} {i : Instr} {n : Nat} {x : Temps}
    (h : s.requireMap (fun u => .next (u.enter i n x)) = .next t) :
    ∃ m, State.onlyPort { s with map := m } t ∧ (s.map ≠ .unopened → m = s.map) := by
  obtain ⟨m, hopen, hm⟩ := lazyOpen_map s
  refine ⟨m, ?_, hm⟩
  rw [← hopen]
  rcases requireMap_next h with ⟨-, rfl⟩ | ⟨-, hgo⟩
  · exact onlyPort_raise _ _
  · cases hgo
    exact onlyPort_enter _ _ _ _

/-- If the result is a next state, it is `s` but for the port. -/
def ChangesOnlyPort (s : State) (x : Result) : Prop := ∀ t, x = .next t → s.onlyPort t

theorem State.onlyPort.changesOnlyPort {s t : State} (h : s.onlyPort t) : ChangesOnlyPort s (.next t) :=
  fun _ heq => by cases heq; exact h

section
variable {s : State} {i : Instr}

theorem readThen_changesOnlyPort {b : BankId} {g : Reg} {k : Word → State → Result} (hg : s.afterRead g = s)
    (hk : ∀ w, ChangesOnlyPort s (k w s)) : ChangesOnlyPort s (s.readThen i b g k) := fun t h => by
  rcases readThen_next h with ⟨-, rfl⟩ | ⟨-, rfl⟩ | ⟨-, hgo⟩
  · exact onlyPort_hold s i
  · exact onlyPort_raise s _
  · exact hk _ t (by rwa [hg] at hgo)

theorem withHandle_changesOnlyPort {h : BitVec 8} {k : Pin → Result} (hk : ∀ p, ChangesOnlyPort s (k p)) :
    ChangesOnlyPort s (s.withHandle h k) := fun t hn => by
  rcases withHandle_next hn with ⟨-, rfl⟩ | ⟨-, hgo⟩
  · exact onlyPort_raise s _
  · exact hk _ t hgo

theorem withLock_changesOnlyPort {c : Nat} {k : Collection → Result} (hk : ∀ x, ChangesOnlyPort s (k x)) :
    ChangesOnlyPort s (s.withLock i c k) := fun t h => by
  rcases withLock_next h with ⟨-, rfl⟩ | ⟨-, hgo⟩
  · exact onlyPort_hold s i
  · exact hk _ t hgo

end

/-! ### The commands that read -/

section
variable (s : State)

/-- The first micro-step that GETSTATE and SETACTLOW share. -/
theorem readDirection_changesOnlyPort (i : Instr) (h : BitVec 8) : ChangesOnlyPort s (readDirection i h s) :=
  withHandle_changesOnlyPort fun _ =>
    readThen_changesOnlyPort rfl fun _ => (onlyPort_enter s i 2 _).changesOnlyPort

theorem execGetstate_changesOnlyPort (h : BitVec 8) : ChangesOnlyPort s (execGetstate h s) := by
  unfold execGetstate
  split
  · exact readThen_changesOnlyPort (afterRead_levelRegister s _) fun _ =>
      (onlyPort_respond s .ok _).changesOnlyPort
  · exact readDirection_changesOnlyPort s _ h

theorem execChkdir_changesOnlyPort (h : BitVec 8) : ChangesOnlyPort s (execChkdir h s) :=
  withHandle_changesOnlyPort fun _ =>
    readThen_changesOnlyPort rfl fun _ => (onlyPort_respond s .ok _).changesOnlyPort

theorem execGetpend_changesOnlyPort (h : BitVec 8) : ChangesOnlyPort s (execGetpend h s) := by
  refine withHandle_changesOnlyPort fun p => ?_
  split
  · exact withLock_changesOnlyPort fun _ => (onlyPort_respond s .ok _).changesOnlyPort
  · exact (onlyPort_raise s .invalidOperation).changesOnlyPort

end

/-- The first micro-step of REGRD may open the map, and the second may use up a draw. -/
theorem execRegrd_frame {s t : State} {b : BankId} {r : Reg} (h : execRegrd b r s = .next t) :
    ∃ m d, State.onlyPort { s with map := m, draws := d } t ∧ (s.map ≠ .unopened → m = s.map) ∧
      (r ≠ .set → r ≠ .clear → d = s.draws) := by
  unfold execRegrd at h
  split at h
  · rcases readThen_next h with ⟨-, rfl⟩ | ⟨-, rfl⟩ | ⟨-, hgo⟩
    · exact ⟨s.map, s.draws, onlyPort_hold s _, fun _ => rfl, fun _ _ => rfl⟩
    · exact ⟨s.map, s.draws, onlyPort_raise s _, fun _ => rfl, fun _ _ => rfl⟩
    · cases hgo
      obtain ⟨d, hread, hd⟩ := afterRead_draws s r
      rw [hread]
      exact ⟨s.map, d, onlyPort_respond { s with draws := d } .ok _, fun _ => rfl, hd⟩
  · obtain ⟨m, hport, hm⟩ := requireMap_enter_onlyPort h
    exact ⟨m, s.draws, hport, hm, fun _ _ => rfl⟩

/-- Settles O42. -/
theorem readingCommandsChangeOnlyThePort : Obligations.ReadingCommandsChangeOnlyThePort :=
  ⟨fun s t h => execGetstate_changesOnlyPort s h t, fun s t h => execChkdir_changesOnlyPort s h t,
    fun s t h => execGetpend_changesOnlyPort s h t, fun _ _ _ _ => execRegrd_frame⟩

/-! ### REGWR -/

theorem setBank_bank_eq (s : State) (b : BankId) : s.setBank b (s.bank b) = s := by
  simp [State.setBank, State.bank]

/-- `x` is `k` but for the register that a write to `r` stores in: DATAOUT for SET and CLEAR (R34). -/
structure Bank.ChangedAt (r : Reg) (k x : Bank) : Prop where
  padIn : x.padIn = k.padIn
  clkEn : x.clkEn = k.clkEn
  dataOut : r ≠ .dataOut → r ≠ .set → r ≠ .clear → x.dataOut = k.dataOut
  oe : r ≠ .oe → x.oe = k.oe
  debEn : r ≠ .debEn → x.debEn = k.debEn
  debTime : r ≠ .debTime → x.debTime = k.debTime

theorem Bank.ChangedAt.refl (r : Reg) (k : Bank) : Bank.ChangedAt r k k :=
  ⟨rfl, rfl, fun _ _ _ => rfl, fun _ => rfl, fun _ => rfl, fun _ => rfl⟩

theorem write_changedAt {k x : Bank} {r : Reg} {v : Word} (h : k.write r v = some x) :
    Bank.ChangedAt r k x := by
  cases r with
  | dataIn => cases h
  | dataOut | set | clear | debEn | debTime | oe => cases h; constructor <;> simp

/-- Only the register written to, and DATAOUT behind SET and CLEAR, can hold another word. -/
theorem Bank.ChangedAt.stored {k x : Bank} {r r' : Reg} (h : Bank.ChangedAt r k x) (hr : r' ≠ r)
    (hout : r' ≠ .dataOut) : x.stored r' = k.stored r' := by
  cases r' with
  | dataIn => exact congrArg some h.padIn
  | dataOut => exact absurd rfl hout
  | set | clear => rfl
  | debEn => exact congrArg some (h.debEn hr.symm)
  | debTime => exact congrArg some (h.debTime hr.symm)
  | oe => exact congrArg some (h.oe hr.symm)

/-- REGWR's first micro-step may open the map, and its second writes the bank if the access goes through. -/
theorem execRegwr_frame {s t : State} {b : BankId} {r : Reg} {w : Word} (h : execRegwr b r w s = .next t) :
    ∃ m x, State.onlyPort (State.setBank { s with map := m } b x) t ∧ (s.map ≠ .unopened → m = s.map) ∧
      (x = s.bank b ∨ (s.mstep = 2 ∧ s.Accessible b ∧ (s.bank b).write r w = some x)) := by
  unfold execRegwr at h
  split at h
  next hm =>
    rcases writeThen_next h with ⟨-, rfl⟩ | ⟨-, rfl⟩ | ⟨hpass, x, hx, hgo⟩
    · exact ⟨s.map, s.bank b, (setBank_bank_eq s b).symm ▸ onlyPort_hold s _, fun _ => rfl, .inl rfl⟩
    · exact ⟨s.map, s.bank b, (setBank_bank_eq s b).symm ▸ onlyPort_raise s _, fun _ => rfl, .inl rfl⟩
    · cases hgo
      exact ⟨s.map, x, onlyPort_respond (s.setBank b x) .ok 0, fun _ => rfl,
        .inr ⟨hm, accessible_of_gate hpass, hx⟩⟩
  next =>
    obtain ⟨m, hport, hm⟩ := requireMap_enter_onlyPort h
    exact ⟨m, s.bank b, (setBank_bank_eq { s with map := m } b).symm ▸ hport, hm, .inl rfl⟩

/-- A byte of the pages reads as before if the register that it belongs to does. -/
theorem busByte_congr {s t : State} {a : Nat} (hcfg : t.cfg = s.cfg)
    (h : ∀ b r, busDecode s.cfg a = some (b, r) → (t.bank b).stored r = (s.bank b).stored r) :
    t.busByte a = s.busByte a := by
  unfold State.busByte
  rw [hcfg]
  cases hd : busDecode s.cfg a with
  | none => rfl
  | some x => simp only [h x.1 x.2 hd]

/-- Settles O43: the bank that REGWR leaves is the one before it, or that one written. -/
theorem regwrChangesOnlyItsRegister : Obligations.RegwrChangesOnlyItsRegister := by
  intro s t b r w h
  obtain ⟨m, x, hport, hm, hx⟩ := execRegwr_frame h
  have hchanged : Bank.ChangedAt r (s.bank b) x := by
    rcases hx with rfl | ⟨-, -, hwrite⟩
    · exact .refl r _
    · exact write_changedAt hwrite
  have hbank : ∀ b', t.bank b' = if b' = b then x else s.bank b' := fun b' => by
    rw [State.bank, hport.banks]
    exact setBank_bank { s with map := m } b b' x
  refine ⟨⟨m, x, hport, hm, hchanged.padIn, hchanged.clkEn, hchanged.dataOut, hchanged.oe, hchanged.debEn,
    hchanged.debTime⟩, fun hno => ?unwritten, fun a hr hout => busByte_congr hport.cfg fun b' r' hd => ?byte⟩
  case unwritten =>
    have hsame : x = s.bank b := by
      rcases hx with hx | ⟨hstep, ha, -⟩
      · exact hx
      · exact absurd hno (by simp [nextAccess, hstep, ha])
    rw [hport.banks, hsame]
    exact perBank_set_get_self s.banks b
  case byte =>
    rw [hbank]
    split
    next hb =>
      subst hb
      exact hchanged.stored (fun heq => hr (heq ▸ hd)) fun heq => hout (heq ▸ hd)
    next => rfl

end Sys2Proof.Machine
end

section
/-! PROOFS. Under a legal layout a physical address belongs to at most one register (R32, R51), so that the byte
view of the pages is that of the stored words. -/

namespace Sys2Proof.Machine

/-- The seven registers, in the order of rule R56. -/
def allRegs : List Reg := [.dataIn, .dataOut, .set, .clear, .debEn, .debTime, .oe]

/-- The four banks (R6). -/
def allBanks : List BankId := [0, 1, 2, 3]

theorem mem_allRegs (r : Reg) : r ∈ allRegs := by cases r <;> decide

theorem mem_allBanks (b : BankId) : b ∈ allBanks := by fin_cases b <;> decide

theorem mem_busWords (b : BankId) (r : Reg) : (b, r) ∈ busWords :=
  List.mem_flatMap.2 ⟨b, mem_allBanks b, List.mem_map.2 ⟨r, mem_allRegs r, rfl⟩⟩

theorem offsets_eq_map (cfg : Config) : cfg.regOff.toList = allRegs.map (regOffset cfg) := rfl

theorem bases_eq_map (cfg : Config) : cfg.bankBase.toList = allBanks.map cfg.bankBase.get := rfl

section
variable {cfg : Config} (hlegal : cfg.layoutLegal)
include hlegal

theorem regOffset_legal (r : Reg) : regOffset cfg r % 4 = 0 ∧ regOffset cfg r < 4096 :=
  have ⟨hoffsets, _⟩ := hlegal
  hoffsets _ (offsets_eq_map cfg ▸ List.mem_map_of_mem (mem_allRegs r))

theorem bankBase_legal (b : BankId) : cfg.bankBase.get b % 4096 = 0 :=
  have ⟨_, _, hbases, _⟩ := hlegal
  hbases _ (bases_eq_map cfg ▸ List.mem_map_of_mem (mem_allBanks b))

theorem regOffset_injective : Function.Injective (regOffset cfg) := fun r r' h =>
  have ⟨_, hdistinct, _⟩ := hlegal
  List.inj_on_of_nodup_map (offsets_eq_map cfg ▸ hdistinct) (mem_allRegs r) (mem_allRegs r') h

theorem bankBase_injective : Function.Injective cfg.bankBase.get := fun b b' h =>
  have ⟨_, _, _, hdistinct⟩ := hlegal
  List.inj_on_of_nodup_map (bases_eq_map cfg ▸ hdistinct) (mem_allBanks b) (mem_allBanks b') h

/-- The words of two registers share an address only if they are one register: the page of an address is its
base, and the word in the page its offset. -/
theorem register_unique {b b' : BankId} {r r' : Reg} {a : Nat}
    (h : regAddress cfg b r ≤ a ∧ a < regAddress cfg b r + 4)
    (h' : regAddress cfg b' r' ≤ a ∧ a < regAddress cfg b' r' + 4) : (b, r) = (b', r') := by
  obtain ⟨halign, hlt⟩ := regOffset_legal hlegal r
  obtain ⟨halign', hlt'⟩ := regOffset_legal hlegal r'
  have hpage := bankBase_legal hlegal b
  have hpage' := bankBase_legal hlegal b'
  unfold regAddress at h h'
  have hbase : cfg.bankBase.get b = cfg.bankBase.get b' := by omega
  have hoff : regOffset cfg r = regOffset cfg r' := by omega
  rw [bankBase_injective hlegal hbase, regOffset_injective hlegal hoff]

theorem busDecode_regAddress (b : BankId) (r : Reg) {k : Nat} (hk : k < 4) :
    busDecode cfg (regAddress cfg b r + k) = some (b, r) := by
  have hself : regAddress cfg b r ≤ regAddress cfg b r + k ∧
      regAddress cfg b r + k < regAddress cfg b r + 4 := by omega
  cases hd : busDecode cfg (regAddress cfg b r + k) with
  | none =>
    have hnot := List.find?_eq_none.1 hd (b, r) (mem_busWords b r)
    exact absurd hself (by simpa using hnot)
  | some y =>
    have hy := List.find?_some hd
    rw [register_unique hlegal hself (by simpa using hy)]

end

/-- Settles O60: the address is decoded to its register, and lies `k` bytes past its start. -/
theorem pageBytesAreLittleEndian : Obligations.PageBytesAreLittleEndian := by
  intro s b r k hlegal hk
  simp only [State.busByte, busDecode_regAddress hlegal b r hk, Nat.add_sub_cancel_left, byteOfWord]

end Sys2Proof.Machine
end

section
/-! PROOFS. The decoder by rows and formats: which format each opcode is read in (R54, R55), what each format answers,
and that the fields of a word put together again are the word. -/

namespace Sys2Proof

/-! ### The rows of the decoder -/

/-- The fourteen opcodes of rule R55. -/
def opcodes : List (BitVec 8) :=
  [0x01, 0x02, 0x03, 0x04, 0x10, 0x11, 0x12, 0x13, 0x14, 0x15, 0x16, 0x20, 0x21, 0x22]

/-- What `decodeShape` answers for a command with a given opcode, row by row; see `decodeShape_eq` and
`decoderRow`. -/
inductive DecoderRow (c : Command) : BitVec 8 → Except DecodeError Instr → Prop where
  | mapopen : DecoderRow c 0x01 (formatN c.cmd .mapopen)
  | mapclose : DecoderRow c 0x02 (formatN c.cmd .mapclose)
  | regrd : DecoderRow c 0x03 (formatR c.cmd .regrd)
  | regwr : DecoderRow c 0x04 (formatR c.cmd fun b r => .regwr b r c.wdata)
  | pinnew : DecoderRow c 0x10 (formatP c.cmd)
  | setstate : DecoderRow c 0x11 (formatHV c.cmd .setstate)
  | setimm : DecoderRow c 0x12 (formatHV c.cmd .setimm)
  | getstate : DecoderRow c 0x13 (formatHC c.cmd .getstate)
  | chkdir : DecoderRow c 0x14 (formatHC c.cmd .chkdir)
  | setactlow : DecoderRow c 0x15 (formatHV c.cmd .setactlow)
  | setdeb : DecoderRow c 0x16 (formatHV c.cmd .setdeb)
  | beginTx : DecoderRow c 0x20 (formatHC c.cmd .beginTx)
  | commit : DecoderRow c 0x21 (formatHC c.cmd .commit)
  | getpend : DecoderRow c 0x22 (formatHC c.cmd .getpend)
  | unknown {op : BitVec 8} (h : op ∉ opcodes) : DecoderRow c op (.error .unknownOpcode)

theorem decodeShape_eq {c : Command} {op : BitVec 8} {x : Except DecodeError Instr} (h : DecoderRow c op x)
    (hop : opField c.cmd = op) : decodeShape c = x := by
  cases h with
  | unknown hnot =>
    rw [← hop] at hnot
    simp only [opcodes, List.mem_cons, not_or, ← BitVec.toNat_inj] at hnot
    simp_all [decodeShape]
  | mapopen | mapclose | regrd | regwr | pinnew | setstate | setimm | getstate | chkdir | setactlow | setdeb
  | beginTx | commit | getpend => simp [decodeShape, hop]

theorem exists_decoderRow (c : Command) (op : BitVec 8) : ∃ x, DecoderRow c op x := by
  by_cases h : op ∈ opcodes
  · fin_cases h
    exacts [⟨_, .mapopen⟩, ⟨_, .mapclose⟩, ⟨_, .regrd⟩, ⟨_, .regwr⟩, ⟨_, .pinnew⟩, ⟨_, .setstate⟩, ⟨_, .setimm⟩,
      ⟨_, .getstate⟩, ⟨_, .chkdir⟩, ⟨_, .setactlow⟩, ⟨_, .setdeb⟩, ⟨_, .beginTx⟩, ⟨_, .commit⟩, ⟨_, .getpend⟩]
  · exact ⟨_, .unknown h⟩

theorem decoderRow (c : Command) : DecoderRow c (opField c.cmd) (decodeShape c) := by
  obtain ⟨x, hx⟩ := exists_decoderRow c (opField c.cmd)
  rwa [decodeShape_eq hx rfl]

/-! ### What each format answers -/

section
variable {w : Word}

theorem formatN_of_zero (h : w.extractLsb' 0 24 = 0) (i : Instr) : formatN w i = .ok i := if_pos h

theorem formatR_of_reg {r : Reg} (h : w.extractLsb' 18 6 = 0 ∧ w.extractLsb' 3 13 = 0) (hr : regField w = some r)
    (mk : BankId → Reg → Instr) : formatR w mk = .ok (mk (bankField w) r) := by
  rw [formatR, if_pos h, hr]

theorem formatR_of_reserved (h : w.extractLsb' 18 6 = 0 ∧ w.extractLsb' 3 13 = 0) (hr : regField w = none)
    (mk : BankId → Reg → Instr) : formatR w mk = .error .reservedRegister := by
  rw [formatR, if_pos h, hr]

theorem formatR_of_not_zero (h : ¬(w.extractLsb' 18 6 = 0 ∧ w.extractLsb' 3 13 = 0)) (mk : BankId → Reg → Instr) :
    formatR w mk = .error .mustBeZero := if_neg h

theorem formatP_of_legal (h : ¬(icField w = false ∧ collField w ≠ 0)) :
    formatP w = .ok (.pinnew (handleField w) (icField w) (collField w) (numField w)) := if_neg h

theorem formatP_of_reserved (h : icField w = false ∧ collField w ≠ 0) :
    formatP w = .error .collectionWithoutIc := if_pos h

theorem formatHV_of_zero (h : w.extractLsb' 1 15 = 0) (mk : BitVec 8 → Bool → Instr) :
    formatHV w mk = .ok (mk (handleField w) (vField w)) := if_pos h

theorem formatHC_of_zero (h : w.extractLsb' 0 16 = 0) (mk : BitVec 8 → Instr) :
    formatHC w mk = .ok (mk (handleField w)) := if_pos h

end

/-! ### Packing, then reading a format -/

theorem packN_op (op : BitVec 8) : opField (packN op) = op := by
  rw [opField, packN, extract_append_high _ _ _ _ (by omega)]
  exact extract_whole op

theorem packN_mbz (op : BitVec 8) : (packN op).extractLsb' 0 24 = 0 := by
  rw [packN, extract_append_low _ _ _ _ (by omega)]
  exact extract_zero ..

theorem formatN_pack (op : BitVec 8) (i : Instr) : formatN (packN op) i = .ok i := formatN_of_zero (packN_mbz op) i

theorem formatR_pack (op : BitVec 8) (b : BankId) (r : Reg) (mk : BankId → Reg → Instr) :
    formatR (packR op b r) mk = .ok (mk b r) := by
  rw [formatR_of_reg (packR_mbz op b r) (packR_reg op b r), packR_bank]

theorem formatP_pack {h : BitVec 8} {ic : Bool} {coll : BitVec 7} {num : BitVec 8} (hc : ic = false → coll = 0) :
    formatP (encodeWord (.pinnew h ic coll num)) = .ok (.pinnew h ic coll num) := by
  have hlegal : ¬(ic = false ∧ coll ≠ 0) := fun ⟨hic, hcoll⟩ => hcoll (hc hic)
  rw [formatP_of_legal (by rwa [packP_ic, packP_coll]), packP_handle, packP_ic, packP_coll, packP_num]

theorem formatHV_pack (op h : BitVec 8) (v : Bool) (mk : BitVec 8 → Bool → Instr) :
    formatHV (packHV op h v) mk = .ok (mk h v) := by
  rw [formatHV_of_zero (packHV_mbz op h v), packHV_handle, packHV_v]

theorem formatHC_pack (op h : BitVec 8) (mk : BitVec 8 → Instr) : formatHC (packHC op h) mk = .ok (mk h) := by
  rw [formatHC_of_zero (packHC_mbz op h), packHC_handle]

/-! ### Reading a format, then packing -/

theorem ofBool_getLsbD {n : Nat} (x : BitVec n) (k : Nat) : BitVec.ofBool (x.getLsbD k) = x.extractLsb' k 1 := by
  ext i hi
  obtain rfl : i = 0 := by omega
  simp

theorem selector_of_regField {w : Word} {r : Reg} (h : regField w = some r) :
    r.selector = w.extractLsb' 0 3 := by
  unfold regField at h
  generalize w.extractLsb' 0 3 = x at h ⊢
  revert x
  cases r <;> decide

theorem bankField_bits (w : Word) : BitVec.ofNat 2 (bankField w).val = w.extractLsb' 16 2 :=
  BitVec.ofNat_toNat _ _ |>.trans (BitVec.setWidth_eq _)

section
variable {w : Word}

theorem packN_fields (h : w.extractLsb' 0 24 = 0) : packN (opField w) = w := by
  have hcut : packN (opField w) = w.extractLsb' 24 8 ++ w.extractLsb' 0 24 := by rw [h]; rfl
  rw [hcut, BitVec.extractLsb'_append_extractLsb'_eq_extractLsb' (by rfl)]
  exact extract_whole w

theorem packR_fields {r : Reg} (h : w.extractLsb' 18 6 = 0 ∧ w.extractLsb' 3 13 = 0) (hr : regField w = some r) :
    packR (opField w) (bankField w) r = w := by
  obtain ⟨hhigh, hlow⟩ := h
  have hcut : packR (opField w) (bankField w) r = w.extractLsb' 24 8 ++ w.extractLsb' 18 6 ++
      w.extractLsb' 16 2 ++ w.extractLsb' 3 13 ++ w.extractLsb' 0 3 := by
    rw [hhigh, hlow, ← bankField_bits, ← selector_of_regField hr]
    rfl
  rw [hcut]
  iterate 4 rw [BitVec.extractLsb'_append_extractLsb'_eq_extractLsb' (by rfl)]
  exact extract_whole w

theorem packP_fields (h : opField w = 0x10) :
    encodeWord (.pinnew (handleField w) (icField w) (collField w) (numField w)) = w := by
  have hcut : encodeWord (.pinnew (handleField w) (icField w) (collField w) (numField w)) =
      w.extractLsb' 24 8 ++ w.extractLsb' 16 8 ++ w.extractLsb' 15 1 ++ w.extractLsb' 8 7 ++
        w.extractLsb' 0 8 := by
    rw [← ofBool_getLsbD, show w.extractLsb' 24 8 = 0x10 from h]
    rfl
  rw [hcut]
  iterate 4 rw [BitVec.extractLsb'_append_extractLsb'_eq_extractLsb' (by rfl)]
  exact extract_whole w

theorem packHV_fields (h : w.extractLsb' 1 15 = 0) : packHV (opField w) (handleField w) (vField w) = w := by
  have hcut : packHV (opField w) (handleField w) (vField w) =
      w.extractLsb' 24 8 ++ w.extractLsb' 16 8 ++ w.extractLsb' 1 15 ++ w.extractLsb' 0 1 := by
    rw [h, ← ofBool_getLsbD]
    rfl
  rw [hcut]
  iterate 3 rw [BitVec.extractLsb'_append_extractLsb'_eq_extractLsb' (by rfl)]
  exact extract_whole w

theorem packHC_fields (h : w.extractLsb' 0 16 = 0) : packHC (opField w) (handleField w) = w := by
  have hcut : packHC (opField w) (handleField w) =
      w.extractLsb' 24 8 ++ w.extractLsb' 16 8 ++ w.extractLsb' 0 16 := by
    rw [h]
    rfl
  rw [hcut]
  iterate 2 rw [BitVec.extractLsb'_append_extractLsb'_eq_extractLsb' (by rfl)]
  exact extract_whole w

end

end Sys2Proof
end

section
/-! PROOFS. The decoder and the encoder are inverse to each other (R54, R57, R59), and both follow the opcode map of
rule R55. -/

namespace Sys2Proof

/-! ### The decoder undoes the encoder -/

/-- The shape test passes the encoding of every instruction but the reserved form of PINNEW (R59 item 4). -/
theorem decodeShape_encode {i : Instr} (hc : i.CollectionNeedsIc) : decodeShape (encode i) = .ok i := by
  cases i with
  | mapopen | mapclose => simp [decodeShape, encode, encodeWord, packN_op, formatN_pack]
  | regrd | regwr => simp [decodeShape, encode, encodeWord, encodeWdata, packR_op, formatR_pack]
  | pinnew h ic coll num => simp [decodeShape, encode, packP_op, formatP_pack hc]
  | setstate | setimm | setactlow | setdeb => simp [decodeShape, encode, encodeWord, packHV_op, formatHV_pack]
  | getstate | chkdir | beginTx | commit | getpend =>
    simp [decodeShape, encode, encodeWord, packHC_op, formatHC_pack]

theorem collectionNeedsIc_of_wellFormed {cfg : Config} {i : Instr} (h : i.wellFormed cfg = true) :
    i.CollectionNeedsIc := by
  cases i with
  | pinnew h' ic coll num =>
    rintro rfl
    simp only [Instr.wellFormed, Bool.false_eq_true, ↓reduceIte, Bool.and_eq_true, decide_eq_true_eq] at h
    exact h.2
  | mapopen | mapclose | regrd | regwr | setstate | setimm | getstate | chkdir | setactlow | setdeb | beginTx
  | commit | getpend => trivial

theorem rangeError_of_wellFormed {cfg : Config} {i : Instr} (h : i.wellFormed cfg = true) :
    rangeError cfg i = none := by
  cases i with
  | mapopen | mapclose | regrd | regwr => rfl
  | pinnew h' ic coll num =>
    obtain ⟨hh, hcoll⟩ := Bool.and_eq_true_iff.1 h
    refine Option.or_eq_none_iff.2 ⟨handleError_none.2 (of_decide_eq_true hh), ?_⟩
    cases ic with
    | false => rfl
    | true => exact collectionError_none.2 (of_decide_eq_true hcoll)
  | setstate | setimm | getstate | chkdir | setactlow | setdeb | getpend =>
    exact handleError_none.2 (of_decide_eq_true h)
  | beginTx | commit => exact collectionError_none.2 (of_decide_eq_true h)

theorem decode_of_shape {cfg : Config} {c : Command} {i : Instr} (hs : decodeShape c = .ok i)
    (hr : rangeError cfg i = none) : decode cfg c = .ok i := by
  simp only [decode, hs, hr]

/-- Settles O1: the encoding passes the shape test, and a well-formed instruction the range test. -/
theorem decodeOfEncodeIsTheInstruction : Obligations.DecodeOfEncodeIsTheInstruction := fun _ _ hwf =>
  decode_of_shape (decodeShape_encode (collectionNeedsIc_of_wellFormed hwf)) (rangeError_of_wellFormed hwf)

/-! ### The encoder undoes the decoder -/

section
variable {w : Word} {op : BitVec 8}

theorem formatN_ok_pack (hop : opField w = op) {i j : Instr} (h : formatN w i = .ok j) : j = i ∧ packN op = w := by
  unfold formatN at h
  split at h <;> cases h
  exact ⟨rfl, hop ▸ packN_fields ‹_›⟩

theorem formatR_ok_pack (hop : opField w = op) {mk : BankId → Reg → Instr} {j : Instr} (h : formatR w mk = .ok j) :
    ∃ b r, j = mk b r ∧ packR op b r = w := by
  unfold formatR at h
  split at h
  next hmbz =>
    split at h <;> cases h
    exact ⟨_, _, rfl, hop ▸ packR_fields hmbz ‹_›⟩
  · cases h

theorem formatP_ok_pack {j : Instr} (hop : opField w = 0x10) (h : formatP w = .ok j) :
    (∃ x ic coll num, j = .pinnew x ic coll num) ∧ encodeWord j = w := by
  unfold formatP at h
  split at h <;> cases h
  exact ⟨⟨_, _, _, _, rfl⟩, packP_fields hop⟩

theorem formatHV_ok_pack (hop : opField w = op) {mk : BitVec 8 → Bool → Instr} {j : Instr} (h : formatHV w mk = .ok j) :
    ∃ x v, j = mk x v ∧ packHV op x v = w := by
  unfold formatHV at h
  split at h <;> cases h
  exact ⟨_, _, rfl, hop ▸ packHV_fields ‹_›⟩

theorem formatHC_ok_pack (hop : opField w = op) {mk : BitVec 8 → Instr} {j : Instr} (h : formatHC w mk = .ok j) :
    ∃ x, j = mk x ∧ packHC op x = w := by
  unfold formatHC at h
  split at h <;> cases h
  exact ⟨_, rfl, hop ▸ packHC_fields ‹_›⟩

end

/-- The command of a decoded instruction, with REGWR's side operand, is the command that was decoded. -/
theorem encode_of_decodeShape {c : Command} {i : Instr} (h : decodeShape c = .ok i) :
    encodeWord i = c.cmd ∧ ∀ b r w, i = .regwr b r w → w = c.wdata := by
  have hrow := decoderRow c
  rw [h] at hrow
  generalize hop : opField c.cmd = op at hrow
  generalize hx : Except.ok i = x at hrow
  cases hrow with
  | mapopen | mapclose =>
    obtain ⟨rfl, hw⟩ := formatN_ok_pack hop hx.symm
    exact ⟨hw, nofun⟩
  | regrd =>
    obtain ⟨b, r, rfl, hw⟩ := formatR_ok_pack hop hx.symm
    exact ⟨hw, nofun⟩
  | regwr =>
    obtain ⟨b, r, rfl, hw⟩ := formatR_ok_pack hop hx.symm
    exact ⟨hw, fun _ _ _ heq => (Instr.regwr.inj heq).2.2.symm⟩
  | pinnew =>
    obtain ⟨⟨x, ic, coll, num, rfl⟩, hw⟩ := formatP_ok_pack hop hx.symm
    exact ⟨hw, nofun⟩
  | setstate | setimm | setactlow | setdeb =>
    obtain ⟨x, v, rfl, hw⟩ := formatHV_ok_pack hop hx.symm
    exact ⟨hw, nofun⟩
  | getstate | chkdir | beginTx | commit | getpend =>
    obtain ⟨x, rfl, hw⟩ := formatHC_ok_pack hop hx.symm
    exact ⟨hw, nofun⟩
  | unknown => cases hx

/-- Only the row of REGWR reads the side operand. -/
theorem decodeShape_wdata {c : Command} (hop : opField c.cmd ≠ 0x04) (w : Word) :
    decodeShape ⟨c.cmd, w⟩ = decodeShape c := by
  have hrow := decoderRow c
  generalize hx : decodeShape c = x at hrow
  generalize ho : opField c.cmd = op at hrow
  refine decodeShape_eq (c := ⟨c.cmd, w⟩) ?_ ho
  cases hrow with
  | regwr => exact absurd ho hop
  | unknown h => exact .unknown h
  | mapopen | mapclose | regrd | pinnew | setstate | setimm | getstate | chkdir | setactlow | setdeb | beginTx
  | commit | getpend => constructor

/-- Settles O2. -/
theorem encodeOfDecodeIsTheCommandWord : Obligations.EncodeOfDecodeIsTheCommandWord := by
  intro cfg c i hd
  obtain ⟨hshape, hrange⟩ := decode_ok hd
  obtain ⟨hword, hwdata⟩ := encode_of_decodeShape hshape
  refine ⟨hword, decode_wellFormed hd, hwdata, fun hnot w => decode_of_shape ?_ hrange⟩
  have hop : opField c.cmd ≠ 0x04 := fun hop => by
    obtain ⟨b, r, hi, -⟩ := formatR_ok_pack hop ((decodeShape_eq .regwr hop).symm.trans hshape)
    exact hnot _ _ _ hi
  rw [decodeShape_wdata hop, hshape]

/-! ### The opcode map -/

theorem encodeWord_matches (i : Instr) : encodeWord i &&& (opcodeRow i).mask = (opcodeRow i).value := by
  cases i with
  | mapopen => exact Laws.EncodeMatchesRow.mapopen
  | mapclose => exact Laws.EncodeMatchesRow.mapclose
  | pinnew h ic coll num => exact Laws.EncodeMatchesRow.pinnew h ic coll num
  | regrd | regwr => exact Laws.packR_masked ..
  | setstate | setimm | setactlow | setdeb => exact Laws.packHV_masked ..
  | getstate | chkdir | beginTx | commit | getpend => exact Laws.packHC_masked ..

/-- A slice that the mask covers is the slice of the row's value. -/
theorem slice_of_masked {w m v : Word} (h : w &&& m = v) (k n : Nat) (hm : m.extractLsb' k n = BitVec.allOnes n) :
    w.extractLsb' k n = v.extractLsb' k n := by
  rw [← h, BitVec.extractLsb'_and, hm, BitVec.and_allOnes]

theorem slice_zero_of_masked {w m v : Word} (h : w &&& m = v) (k n : Nat) (hm : m.extractLsb' k n = BitVec.allOnes n)
    (hv : v.extractLsb' k n = 0) : w.extractLsb' k n = 0 :=
  (slice_of_masked h k n hm).trans hv

/-- The fourteen rows of the opcode map. -/
def opcodeRows : List OpcodeRow :=
  [.mapopen, .mapclose, .regrd 0 .oe, .regwr 0 .oe 0, .pinnew 0 false 0 0, .setstate 0 false, .setimm 0 false,
    .getstate 0, .chkdir 0, .setactlow 0 false, .setdeb 0 false, .beginTx 0, .commit 0, .getpend 0].map opcodeRow

theorem mem_opcodeRows (i : Instr) : opcodeRow i ∈ opcodeRows := by
  cases i <;> simp [opcodeRows, opcodeRow]

/-- The opcode is fixed in every row. -/
theorem opcodeRows_mask_op : ∀ row ∈ opcodeRows, opField row.mask = BitVec.allOnes 8 := by decide

/-- No opcode stands in two rows. -/
theorem opcodeRows_nodup : (opcodeRows.map fun row => opField row.value).Nodup := by decide

theorem opField_of_matches {w : Word} {i : Instr} (h : w &&& (opcodeRow i).mask = (opcodeRow i).value) :
    opField w = opField (opcodeRow i).value :=
  slice_of_masked h 24 8 (opcodeRows_mask_op _ (mem_opcodeRows i))

theorem opcodeRow_unique {w : Word} {i j : Instr} (hi : w &&& (opcodeRow i).mask = (opcodeRow i).value)
    (hj : w &&& (opcodeRow j).mask = (opcodeRow j).value) : opcodeRow i = opcodeRow j :=
  List.inj_on_of_nodup_map opcodeRows_nodup (mem_opcodeRows i) (mem_opcodeRows j)
    ((opField_of_matches hi).symm.trans (opField_of_matches hj))

theorem regField_none_iff {w : Word} : regField w = none ↔ w.extractLsb' 0 3 = 7 := by
  unfold regField
  generalize w.extractLsb' 0 3 = x
  revert x
  decide

/-- A word with the must-be-zero bits of format R names a register or has the reserved selector. -/
theorem formatR_of_zero {w : Word} (h : w.extractLsb' 18 6 = 0 ∧ w.extractLsb' 3 13 = 0)
    (mk : BankId → Reg → Instr) :
    (∃ b r, formatR w mk = .ok (mk b r)) ∨
    (w.extractLsb' 0 3 = 7 ∧ formatR w mk = .error .reservedRegister) := by
  cases hr : regField w with
  | some r => exact .inl ⟨_, r, formatR_of_reg h hr mk⟩
  | none => exact .inr ⟨regField_none_iff.1 hr, formatR_of_reserved h hr mk⟩

/-- Every word of format P is a PINNEW or has the reserved Collection value. -/
theorem formatP_cases (w : Word) :
    (∃ h ic coll num, formatP w = .ok (.pinnew h ic coll num)) ∨
    (icField w = false ∧ collField w ≠ 0 ∧ formatP w = .error .collectionWithoutIc) := by
  by_cases h : icField w = false ∧ collField w ≠ 0
  · exact .inr ⟨h.1, h.2, formatP_of_reserved h⟩
  · exact .inl ⟨_, _, _, _, formatP_of_legal h⟩

theorem decodeShape_matches {c : Command} {i : Instr} (h : decodeShape c = .ok i) :
    c.cmd &&& (opcodeRow i).mask = (opcodeRow i).value :=
  (encode_of_decodeShape h).1 ▸ encodeWord_matches i

/-- A word with the opcode and the must-be-zero bits of a row decodes, but for the two reserved operand values of
rule R59. -/
theorem decodeShape_of_matches {c : Command} {i : Instr} (h : c.cmd &&& (opcodeRow i).mask = (opcodeRow i).value) :
    (∃ j, decodeShape c = .ok j) ∨
    (c.cmd.extractLsb' 0 3 = 7 ∧ decodeShape c = .error .reservedRegister) ∨
    (c.cmd.getLsbD 15 = false ∧ c.cmd.extractLsb' 8 7 ≠ 0 ∧ decodeShape c = .error .collectionWithoutIc) := by
  have hop := opField_of_matches h
  have hzero := slice_zero_of_masked h
  cases i <;> simp only [opcodeRow] at hop hzero
  case mapopen | mapclose =>
    have hshape := decodeShape_eq (by constructor) hop
    exact .inl ⟨_, hshape.trans (formatN_of_zero (hzero 0 24 (by decide) (by decide)) _)⟩
  case regrd | regwr =>
    have hshape := decodeShape_eq (by constructor) hop
    have hmbz := And.intro (hzero 18 6 (by decide) (by decide)) (hzero 3 13 (by decide) (by decide))
    rcases formatR_of_zero hmbz _ with ⟨b, r, hok⟩ | ⟨hreg, hno⟩
    · exact .inl ⟨_, hshape.trans hok⟩
    · exact .inr (.inl ⟨hreg, hshape.trans hno⟩)
  case pinnew =>
    have hshape := decodeShape_eq .pinnew hop
    rcases formatP_cases c.cmd with ⟨h, ic, coll, num, hok⟩ | ⟨hic, hcoll, hno⟩
    · exact .inl ⟨_, hshape.trans hok⟩
    · exact .inr (.inr ⟨hic, hcoll, hshape.trans hno⟩)
  case setstate | setimm | setactlow | setdeb =>
    have hshape := decodeShape_eq (by constructor) hop
    exact .inl ⟨_, hshape.trans (formatHV_of_zero (hzero 1 15 (by decide) (by decide)) _)⟩
  case getstate | chkdir | beginTx | commit | getpend =>
    have hshape := decodeShape_eq (by constructor) hop
    exact .inl ⟨_, hshape.trans (formatHC_of_zero (hzero 0 16 (by decide) (by decide)) _)⟩

/-- Settles O3: the instruction that a word of row `i` decodes to has a row that matches the word too, so it is the
same row. -/
theorem decodeFollowsTheOpcodeMap : Obligations.DecodeFollowsTheOpcodeMap :=
  ⟨fun _ _ => decodeShape_matches,
    fun _ _ h => (decodeShape_of_matches h).imp_left fun ⟨j, hj⟩ =>
      ⟨j, hj, opcodeRow_unique (decodeShape_matches hj) h⟩,
    fun _ _ _ => opcodeRow_unique⟩

end Sys2Proof
end

section
/-! PROOFS. The illegal commands are the six cases of rule R59, and are answered as rule R111 says. -/

namespace Sys2Proof

/-- A reading of a command is illegal if it is an error, or an instruction that fails the range test (R63). -/
def Illegal (cfg : Config) (x : Except DecodeError Instr) : Prop :=
  (∃ e, x = .error e) ∨ ∃ i e, x = .ok i ∧ rangeError cfg i = some e

theorem illegal_error (cfg : Config) (e : DecodeError) : Illegal cfg (.error e) := .inl ⟨e, rfl⟩

theorem illegal_ok {cfg : Config} {i : Instr} : Illegal cfg (.ok i) ↔ rangeError cfg i ≠ none := by
  simp [Illegal, Option.ne_none_iff_exists']

theorem decode_error_iff {cfg : Config} {c : Command} :
    (∃ e, decode cfg c = .error e) ↔ Illegal cfg (decodeShape c) := by
  cases hs : decodeShape c with
  | error e => simp [decode, hs, illegal_error]
  | ok i => cases hr : rangeError cfg i <;> simp [decode, hs, hr, illegal_ok]

/-! ### What makes each format illegal -/

/-- A must-be-zero slice fails its test when one of its bits is 1. -/
theorem slice_ne_zero_iff {w : Word} {k n : Nat} :
    ¬w.extractLsb' k n = 0 ↔ ∃ m, k ≤ m ∧ m < k + n ∧ w.getLsbD m = true := by
  rw [← not_iff_not, not_not]
  simp only [not_exists, not_and, Bool.not_eq_true]
  constructor
  · intro h m hk hm
    have hbit : (w.extractLsb' k n).getLsbD (m - k) = false := by rw [h]; simp
    simpa [show m - k < n by omega, show k + (m - k) = m by omega] using hbit
  · intro h
    ext i hi
    simpa using h (k + i) (by omega) (by omega)

theorem handleError_ne_none {cfg : Config} {h : BitVec 8} : handleError cfg h ≠ none ↔ cfg.nh ≤ h.toNat := by
  rw [Ne, handleError_none, Nat.not_lt]

theorem collectionError_ne_none {cfg : Config} {c : Nat} : collectionError cfg c ≠ none ↔ cfg.ncoll ≤ c := by
  rw [Ne, collectionError_none, Nat.not_lt]

section
variable {cfg : Config} {w : Word}

theorem illegal_ite {p : Prop} [Decidable p] {i : Instr} {e : DecodeError} :
    Illegal cfg (if p then .ok i else .error e) ↔ ¬p ∨ rangeError cfg i ≠ none := by
  split <;> simp [illegal_ok, illegal_error, *]

theorem illegal_formatN {i : Instr} (hr : rangeError cfg i = none) :
    Illegal cfg (formatN w i) ↔ ∃ k, k < 24 ∧ w.getLsbD k = true := by
  rw [formatN, illegal_ite, slice_ne_zero_iff]
  simp [hr]

theorem illegal_formatR {mk : BankId → Reg → Instr} (hr : ∀ b r, rangeError cfg (mk b r) = none) :
    Illegal cfg (formatR w mk) ↔
      (∃ k, (3 ≤ k ∧ k < 16 ∨ 18 ≤ k ∧ k < 24) ∧ w.getLsbD k = true) ∨ w.extractLsb' 0 3 = 7 := by
  have hbits : ¬(w.extractLsb' 18 6 = 0 ∧ w.extractLsb' 3 13 = 0) ↔
      ∃ k, (3 ≤ k ∧ k < 16 ∨ 18 ≤ k ∧ k < 24) ∧ w.getLsbD k = true := by
    rw [not_and_or, slice_ne_zero_iff, slice_ne_zero_iff, or_comm, ← exists_or]
    simp only [or_and_right, and_assoc, Nat.reduceAdd]
  rw [← hbits, ← regField_none_iff]
  by_cases hmbz : w.extractLsb' 18 6 = 0 ∧ w.extractLsb' 3 13 = 0
  · cases hreg : regField w with
    | some r => simp [formatR_of_reg hmbz hreg, illegal_ok, hr, hmbz]
    | none => simp [formatR_of_reserved hmbz hreg, illegal_error]
  · exact iff_of_true ((formatR_of_not_zero hmbz mk).symm ▸ illegal_error cfg _) (.inl hmbz)

theorem rangeError_pinnew_ne_none {h : BitVec 8} {ic : Bool} {coll : BitVec 7} {num : BitVec 8} :
    rangeError cfg (.pinnew h ic coll num) ≠ none ↔ cfg.nh ≤ h.toNat ∨ ic = true ∧ cfg.ncoll ≤ coll.toNat := by
  rw [rangeError, Ne, Option.or_eq_none_iff, not_and_or, ← Ne, handleError_ne_none]
  cases ic <;> simp [collectionError_none]

theorem illegal_formatP :
    Illegal cfg (formatP w) ↔ (w.getLsbD 15 = false ∧ w.extractLsb' 8 7 ≠ 0) ∨
      cfg.nh ≤ (w.extractLsb' 16 8).toNat ∨ w.getLsbD 15 = true ∧ cfg.ncoll ≤ (w.extractLsb' 8 7).toNat := by
  rw [formatP, ← ite_not, illegal_ite, not_not, rangeError_pinnew_ne_none]
  rfl

theorem illegal_formatHV {mk : BitVec 8 → Bool → Instr} (hr : ∀ h v, rangeError cfg (mk h v) = handleError cfg h) :
    Illegal cfg (formatHV w mk) ↔
      (∃ k, 1 ≤ k ∧ k < 16 ∧ w.getLsbD k = true) ∨ cfg.nh ≤ (w.extractLsb' 16 8).toNat := by
  rw [formatHV, illegal_ite, slice_ne_zero_iff, hr, handleError_ne_none]
  rfl

/-- The bound `n` is `NH` for a handle, and `NCOLL` for a Collection. -/
theorem illegal_formatHC {mk : BitVec 8 → Instr} {n : Nat} (hr : ∀ h, rangeError cfg (mk h) ≠ none ↔ n ≤ h.toNat) :
    Illegal cfg (formatHC w mk) ↔
      (∃ k, k < 16 ∧ w.getLsbD k = true) ∨ n ≤ (w.extractLsb' 16 8).toNat := by
  rw [formatHC, illegal_ite, slice_ne_zero_iff, hr]
  simp [handleField]

end

/-! ### The six cases, and the answer -/

theorem fetch_of_decode_error {s : Machine.State} {p : Machine.Port} {c : Command} {e : DecodeError}
    (hp : s.ports[s.turn.port]? = some p) (hf : p.flight = none) (hc : p.prog[p.idx]? = some c)
    (hd : decode s.cfg c = .error e) : s.fetch = .illegal e := by
  simp [Machine.State.fetch, Machine.fetchCommand, Machine.Port.nextCommand, hp, hf, hc, hd]

/-- Settles O4: in each row of the decoder, the cases that name another opcode fall away, and the others are what
makes the row's format illegal. -/
theorem illegalCommandsAreTheSixCases : Obligations.IllegalCommandsAreTheSixCases := by
  refine ⟨fun cfg c => ?cases, fun s p c e hp hf hc hd => ?answer⟩
  case cases =>
    rw [decode_error_iff]
    have hrow := decoderRow c
    unfold opField at hrow
    generalize decodeShape c = x at hrow ⊢
    generalize c.cmd.extractLsb' 24 8 = op at hrow ⊢
    cases hrow with
    | mapopen | mapclose =>
      rw [illegal_formatN (by rfl)]
      simp
    | regrd | regwr =>
      rw [illegal_formatR (by exact fun _ _ => rfl)]
      simp
    | pinnew =>
      rw [illegal_formatP]
      simp
    | setstate | setimm | setactlow | setdeb =>
      rw [illegal_formatHV (by exact fun _ _ => rfl)]
      simp
    | getstate | chkdir | getpend =>
      rw [illegal_formatHC (by exact fun _ => handleError_ne_none)]
      simp
    | beginTx | commit =>
      rw [illegal_formatHC (by exact fun _ => collectionError_ne_none)]
      simp
    | unknown hnot => exact iff_of_true (illegal_error cfg _) (.inl hnot)
  case answer =>
    rw [Machine.runPort, fetch_of_decode_error hp hf hc hd]
    exact congrArg _ (Machine.respond_eq hp _ _)

/-- Settles O5, sanity: each word is decoded. -/
theorem vectorWordsDecode : Obligations.VectorWordsDecode := by
  unfold Obligations.VectorWordsDecode
  decide

end Sys2Proof
end

section
/-! PROOFS. The two micro-steps of REGRD and of REGWR with nothing in between, and the pseudo-command REGRMW that is
made of them (R62, R71). -/

namespace Sys2Proof.Machine

/-! ### A port at M1, and an access that goes through -/

section
variable {s : State} {b : BankId}

theorem requireMap_opened (h : s.map = .opened) (k : State → Result) : s.requireMap k = k s := by
  have hlazy : s.lazyOpen = s := lazyOpen_of_ne (by simp [h])
  simp only [State.requireMap, hlazy, h]

theorem State.Accessible.enter (h : s.Accessible b) (i : Instr) (n : Nat) (x : Temps) : (s.enter i n x).Accessible b :=
  ⟨h.opened, h.clocked, h.noBusError⟩

theorem State.Accessible.respond (h : s.Accessible b) (st : Status) (v : Word) : (s.respond st v).Accessible b :=
  ⟨h.opened, h.clocked, h.noBusError⟩

/-- A port that has answered stands at M1 again. -/
theorem respond_ready (h : s.turn.port < s.ports.length) (st : Status) (v : Word) : (s.respond st v).Ready where
  exists_port := by simpa [State.respond] using h
  first := by simp [State.mstep, respond_port s st v h]

theorem readThen_accessible (h : s.Accessible b) (i : Instr) (r : Reg) (k : Word → State → Result) :
    s.readThen i b r k = k (s.readWord b r) (s.afterRead r) := by
  simp only [State.readThen, gate_of_accessible h]

theorem writeThen_accessible (h : s.Accessible b) {r : Reg} {v : Word} {x : Bank}
    (hx : (s.bank b).write r v = some x) (i : Instr) (e : State → State) (k : State → Result) :
    s.writeThen i b r v e k = k (s.setBank b x) := by
  simp only [State.writeThen, gate_of_accessible h, hx]

/-! ### REGRD and REGWR undisturbed -/

theorem exec_regrd_first (hs : s.Ready) (ho : s.map = .opened) (b : BankId) (r : Reg) :
    exec (.regrd b r) s = .next (s.enter (.regrd b r) 2 Temps.none) := by
  simp only [exec, execRegrd, hs.first, requireMap_opened ho]

theorem exec_regwr_first (hs : s.Ready) (ho : s.map = .opened) (b : BankId) (r : Reg) (v : Word) :
    exec (.regwr b r v) s = .next (s.enter (.regwr b r v) 2 Temps.none) := by
  simp only [exec, execRegwr, hs.first, requireMap_opened ho]

theorem enter_afterRead (s : State) (i : Instr) (n : Nat) (x : Temps) (r : Reg) :
    (s.enter i n x).afterRead r = (s.afterRead r).enter i n x := by cases r <;> rfl

theorem enter_readWord (s : State) (i : Instr) (n : Nat) (x : Temps) (b : BankId) (r : Reg) :
    (s.enter i n x).readWord b r = s.readWord b r := by cases r <;> rfl

theorem exec_regrd_second (hs : s.Ready) (h : s.Accessible b) (r : Reg) :
    exec (.regrd b r) (s.enter (.regrd b r) 2 Temps.none) =
      .next ((s.afterRead r).respond .ok (s.readWord b r)) := by
  simp only [exec, execRegrd, enter_mstep _ _ _ _ hs.exists_port, readThen_accessible (h.enter ..)]
  rw [enter_readWord, enter_afterRead, enter_respond _ _ _ _ _ _ (by simpa using hs.exists_port)]

theorem exec_regwr_second (hs : s.Ready) (h : s.Accessible b) {r : Reg} {v : Word} {x : Bank}
    (hx : (s.bank b).write r v = some x) :
    exec (.regwr b r v) (s.enter (.regwr b r v) 2 Temps.none) = .next ((s.setBank b x).respond .ok 0) := by
  simp only [exec, execRegwr, enter_mstep _ _ _ _ hs.exists_port, writeThen_accessible (h.enter ..) hx]
  rw [enter_setBank, enter_respond _ _ _ _ _ _ (by exact hs.exists_port)]

theorem runInstr_regrd (hs : s.Ready) (h : s.Accessible b) (r : Reg) :
    runInstr (.regrd b r) 2 s = .next ((s.afterRead r).respond .ok (s.readWord b r)) := by
  simp only [runInstr, exec_regrd_first hs h.opened, exec_regrd_second hs h]

theorem runInstr_regwr (hs : s.Ready) (h : s.Accessible b) {r : Reg} {v : Word} {x : Bank}
    (hx : (s.bank b).write r v = some x) :
    runInstr (.regwr b r v) 2 s = .next ((s.setBank b x).respond .ok 0) := by
  simp only [runInstr, exec_regwr_first hs h.opened, exec_regwr_second hs h hx]

end

/-! ### The registers that store what is written (R34, R36, R39 to R41) -/

/-- A register that keeps the word written to it: not DATAIN, SET or CLEAR. -/
def Reg.Storage (r : Reg) : Prop := r = .dataOut ∨ r = .debEn ∨ r = .debTime ∨ r = .oe

theorem Reg.Storage.write {r : Reg} (hr : Reg.Storage r) (k : Bank) (v : Word) :
    ∃ x, k.write r v = some x ∧ x.stored r = some v := by
  rcases hr with rfl | rfl | rfl | rfl <;> exact ⟨_, rfl, rfl⟩

theorem Reg.Storage.read {r : Reg} (hr : Reg.Storage r) (s : State) (b : BankId) :
    (s.bank b).stored r = some (s.readWord b r) ∧ s.afterRead r = s := by
  rcases hr with rfl | rfl | rfl | rfl <;> exact ⟨rfl, rfl⟩

theorem merge_getLsbD (w mask value : Word) (k : Nat) :
    ((w &&& ~~~mask) ||| (value &&& mask)).getLsbD k =
      if mask.getLsbD k = true then value.getLsbD k else w.getLsbD k := by
  have hlow : w.getLsbD k = true → k < 32 := BitVec.lt_of_getLsbD
  cases hm : mask.getLsbD k <;> simp_all

/-- The second command of REGRMW, given the word `w` that the first answered, stores the merged word. -/
theorem runInstr_regRmwWrite {s : State} {b : BankId} {r : Reg} (hs : s.Ready) (h : s.Accessible b)
    (hr : Reg.Storage r) (mask value w : Word) :
    ∃ u, runInstr (regRmwWrite b r mask value w) 2 s = .next u ∧
      (u.bank b).stored r = some ((w &&& ~~~mask) ||| (value &&& mask)) := by
  obtain ⟨x, hwrite, hx⟩ := Reg.Storage.write hr (s.bank b) ((w &&& ~~~mask) ||| (value &&& mask))
  exact ⟨_, runInstr_regwr hs h hwrite, by rw [State.respond, setPort_bank, setBank_bank_self, hx]⟩

/-- Settles O35: REGRD answers the word stored, and leaves its port ready for the REGWR that stores the merged one. -/
theorem readModifyWriteMerges : Obligations.ReadModifyWriteMerges := by
  intro s b r mask value hs haccess hr
  obtain ⟨hstored, hafter⟩ := Reg.Storage.read hr s b
  have hread : runInstr (regRmwRead b r) 2 s = .next (s.respond .ok (s.readWord b r)) := by
    rw [regRmwRead, runInstr_regrd hs haccess, hafter]
  have hrdata : (s.respond .ok (s.readWord b r)).port.rsp.rdata = s.readWord b r := by
    rw [respond_port _ _ _ hs.exists_port]
  obtain ⟨u, hwrite, hmerged⟩ := runInstr_regRmwWrite (respond_ready hs.exists_port .ok (s.readWord b r))
    (haccess.respond .ok _) hr mask value (s.readWord b r)
  exact ⟨_, u, _, _, hread, hrdata.symm ▸ hwrite, hstored, hmerged, merge_getLsbD _ mask value⟩

end Sys2Proof.Machine
end

section
/-! PROOFS. The Register Bank Map commands (40_map.md): the open procedure and `RequireMap` in each state of the map,
MAPOPEN and MAPCLOSE, the first micro-step of the commands that need the map, and REGRD and REGWR of each register. -/

namespace Sys2Proof.Machine

/-! ### The open procedure and `RequireMap` (R65, R66) -/

section
variable {s : State}

theorem openProcedure_of_identified (hid : EveryBankIdentified s.cfg) :
    s.openProcedure = { s with map := .opened } := by
  rw [State.openProcedure, if_pos ((identified_iff s.cfg).2 hid)]

theorem openProcedure_of_not_identified (hid : ¬EveryBankIdentified s.cfg) :
    s.openProcedure = { s with map := .failed } := by
  rw [State.openProcedure, if_neg (mt (identified_iff s.cfg).1 hid)]

theorem requireMap_identified (hm : s.map = .unopened) (hid : EveryBankIdentified s.cfg) (k : State → Result) :
    s.requireMap k = k { s with map := .opened } := by
  simp only [State.requireMap, lazyOpen_of_unopened hm, openProcedure_of_identified hid]

theorem requireMap_not_identified (hm : s.map = .unopened) (hid : ¬EveryBankIdentified s.cfg) (k : State → Result) :
    s.requireMap k = .next ({ s with map := .failed }.raise .hardwareIncompatible) := by
  simp only [State.requireMap, lazyOpen_of_unopened hm, openProcedure_of_not_identified hid]

theorem requireMap_failed (hm : s.map = .failed) (k : State → Result) :
    s.requireMap k = .next (s.raise .hardwareIncompatible) := by
  have hlazy : s.lazyOpen = s := lazyOpen_of_ne (by simp [hm])
  simp only [State.requireMap, hlazy, hm]

theorem requireMap_closed (hm : s.map = .closed) (k : State → Result) :
    s.requireMap k = .fault .useAfterClose := by
  have hlazy : s.lazyOpen = s := lazyOpen_of_ne (by simp [hm])
  simp only [State.requireMap, hlazy, hm]

end

/-! ### MAPOPEN and MAPCLOSE (R67, R68) -/

/-- Settles O12. -/
theorem mapopenAnswersByMapState : Obligations.MapopenAnswersByMapState := by
  refine fun s => ⟨fun hm hid => ?identified, fun hm hid => ?mismatch, fun hm => ?opened, fun hm => ?failed,
    fun hm => ?closed⟩
  case identified => simp only [exec, execMapopen, hm, openProcedure_of_identified hid, if_true]
  case mismatch => simp [exec, execMapopen, hm, openProcedure_of_not_identified hid]
  all_goals simp only [exec, execMapopen, hm]

/-- Settles O13. -/
theorem mapcloseAlwaysAnswersOk : Obligations.MapcloseAlwaysAnswersOk := by
  refine fun s => ⟨fun hm => ?opened, fun hm => ?other⟩
  case opened => simp only [exec, execMapclose, hm]
  case other =>
    cases hmap : s.map with
    | opened => exact absurd hmap hm
    | unopened | failed | closed => simp only [exec, execMapclose, hmap]

/-- MAPOPEN always answers, and changes nothing before it but the map; OK is answered with data 0, as an error is. -/
theorem execMapopen_next {s t : State} (h : execMapopen s = .next t) :
    ∃ m st, t = ({ s with map := m } : State).raise st := by
  unfold execMapopen at h
  split at h
  · split at h <;> cases h <;> exact ⟨_, _, rfl⟩
  all_goals cases h; exact ⟨s.map, _, rfl⟩

theorem execMapclose_next {s t : State} (h : execMapclose s = .next t) :
    ∃ m, t = ({ s with map := m } : State).raise .ok := by
  unfold execMapclose at h
  split at h
  · cases h; exact ⟨.closed, rfl⟩
  all_goals cases h; exact ⟨s.map, rfl⟩

/-- Settles O49. -/
theorem mapCommandsChangeOnlyTheMap : Obligations.MapCommandsChangeOnlyTheMap := by
  refine ⟨fun s t h => ?mapopen, fun s t h => ?mapclose⟩
  case mapopen =>
    obtain ⟨m, st, rfl⟩ := execMapopen_next h
    exact ⟨m, onlyPort_raise _ st⟩
  case mapclose =>
    obtain ⟨m, rfl⟩ := execMapclose_next h
    exact ⟨m, onlyPort_raise _ .ok⟩

/-! ### The commands that need the map (R66) -/

/-- What a command does between `RequireMap` and its second micro-step: COMMIT takes the lock (R88). -/
def State.takeLock (s : State) : Instr → State
  | .commit c => s.setLock c.toNat (.held s.turn.port)
  | _ => s

theorem takeLock_map (s : State) (i : Instr) : (s.takeLock i).map = s.map := by cases i <;> rfl

section
variable {s : State} {i : Instr}

theorem withLock_free {c : Nat} (hlock : (s.coll c).lock = .free) (k : Collection → Result) :
    s.withLock i c k = k (s.coll c) := by
  simp only [State.withLock, hlock]

theorem execCommit_of_lt_two (c : BitVec 8) (hm : s.mstep < 2) : execCommit c s = commitTake c s := by
  unfold execCommit
  split
  · rfl
  · rfl
  · omega

/-- The first micro-step of REGRD, REGWR, PINNEW and COMMIT is `RequireMap`, after which the command stands at M2. -/
theorem exec_of_needsMap (hn : needsMap i s) :
    exec i s = s.requireMap fun t => .next ((t.takeLock i).enter i 2 Temps.none) := by
  cases i with
  | regrd b r =>
    have hm : s.mstep ≠ 2 := hn
    simp only [exec, execRegrd, State.takeLock]
  | regwr b r w =>
    have hm : s.mstep ≠ 2 := hn
    simp only [exec, execRegwr, State.takeLock]
  | pinnew h ic coll num =>
    obtain ⟨hm2, hm3, hnum⟩ := hn
    simp only [exec, execPinnew]
    exact if_neg (by omega)
  | commit c =>
    obtain ⟨hm, hlock⟩ := hn
    exact (execCommit_of_lt_two c hm).trans (withLock_free hlock _)
  | _ => exact hn.elim

end

/-- Settles O16: each of the four commands needs the map at M1, and COMMIT differs from the others by the lock that
`State.takeLock` takes. -/
theorem firstUseOpensTheMap : Obligations.FirstUseOpensTheMap := by
  refine ⟨fun s i hs hi => ?others, fun s c hs hlock => ?commit⟩
  case others =>
    have hfirst : exec i s = s.requireMap fun t => .next (t.enter i 2 Temps.none) := by
      rcases hi with ⟨b, r, rfl⟩ | ⟨b, r, w, rfl⟩ | ⟨h, ic, c, n, rfl, hn⟩
      · exact exec_of_needsMap (i := .regrd b r) (by simp [needsMap, hs.first])
      · exact exec_of_needsMap (i := .regwr b r w) (by simp [needsMap, hs.first])
      · exact exec_of_needsMap (i := .pinnew h ic c n) (by simp [needsMap, hs.first, hn])
    rw [hfirst]
    exact ⟨fun hm hid => requireMap_identified hm hid _, fun hm => requireMap_opened hm _,
      fun hm hid => requireMap_not_identified hm hid _, fun hm => requireMap_failed hm _,
      fun hm => requireMap_closed hm _⟩
  case commit =>
    have hn : needsMap (.commit c) s := ⟨by rw [hs.first]; decide, hlock⟩
    rw [exec_of_needsMap hn]
    exact ⟨fun hm hid => requireMap_identified hm hid _, fun hm hid => requireMap_not_identified hm hid _,
      fun hm => requireMap_failed hm _, fun hm => requireMap_closed hm _⟩

/-! ### REGRD and REGWR of each register (R69, R70) -/

/-- Settles O14. -/
theorem regrdAnswersTheRegister : Obligations.RegrdAnswersTheRegister := by
  intro s b r hs haccess
  have hread := exec_regrd_second hs haccess r
  refine ⟨_, exec_regrd_first hs haccess.opened b r, ?_, ?_, ?_, ?_, ?_, ?freeWord⟩
  case freeWord => rintro (rfl | rfl) <;> exact hread
  all_goals rintro rfl; exact hread

/-- A port that stands at M2 of a raw write to DATAIN, with the access going through, is refused (R35). -/
theorem exec_regwr_second_dataIn {s : State} {b : BankId} (hs : s.Ready) (h : s.Accessible b) (w : Word) :
    exec (.regwr b .dataIn w) (s.enter (.regwr b .dataIn w) 2 Temps.none) = .refused .dataInWrite :=
  (execRegwr_refused_iff _).2 ⟨rfl, rfl, enter_mstep _ _ _ _ hs.exists_port, h.enter ..⟩

/-- Settles O15: for each register but DATAIN the written bank is the one that `Bank.write` gives. -/
theorem regwrWritesTheRegister : Obligations.RegwrWritesTheRegister := by
  intro s b r w hs haccess
  refine ⟨_, exec_regwr_first hs haccess.opened b r w, ?_, ?_, ?_, ?_, ?_, ?_, ?dataIn⟩
  case dataIn => rintro rfl; exact exec_regwr_second_dataIn hs haccess w
  all_goals rintro rfl; exact exec_regwr_second hs haccess rfl

end Sys2Proof.Machine
end

section
/-! PROOFS. The life cycle of the map (R14, R72): what a micro-step of each instruction does to the map, said once in
`exec_map_next`, and what the map can become over a step and over a run. -/

namespace Sys2Proof.Machine

/-! ### One rule on the map for each shared operation -/

/-- If the result is a next state, its map is that of `s`. -/
def KeepsMap (s : State) (x : Result) : Prop := ∀ t, x = .next t → t.map = s.map

theorem next_keepsMap {s t : State} (h : t.map = s.map) : KeepsMap s (.next t) := fun _ heq => by cases heq; exact h

section
variable {s : State} {i : Instr}

theorem readThen_keepsMap {b : BankId} {g : Reg} {k : Word → State → Result}
    (hk : ∀ w u, u.map = s.map → KeepsMap s (k w u)) : KeepsMap s (s.readThen i b g k) := fun t h => by
  rcases readThen_next h with ⟨-, rfl⟩ | ⟨-, rfl⟩ | ⟨-, hgo⟩
  · rfl
  · rfl
  · exact hk _ _ (afterRead_map s g) t hgo

theorem writeThen_keepsMap {b : BankId} {g : Reg} {v : Word} {e : State → State} {k : State → Result}
    (he : (e s).map = s.map) (hk : ∀ u, u.map = s.map → KeepsMap s (k u)) :
    KeepsMap s (s.writeThen i b g v e k) := fun t h => by
  rcases writeThen_next h with ⟨-, rfl⟩ | ⟨-, rfl⟩ | ⟨-, x, -, hgo⟩
  · rfl
  · exact he
  · exact hk _ (setBank_map s b x) t hgo

theorem writePhys_keepsMap (b : BankId) (m : Word) (p : Bool) : KeepsMap s (s.writePhys i b m p) :=
  writeThen_keepsMap rfl fun _ hu => next_keepsMap hu

theorem withHandle_keepsMap {h : BitVec 8} {k : Pin → Result} (hk : ∀ p, KeepsMap s (k p)) :
    KeepsMap s (s.withHandle h k) := fun t hn => by
  rcases withHandle_next hn with ⟨-, rfl⟩ | ⟨-, hgo⟩
  · rfl
  · exact hk _ t hgo

theorem withLock_keepsMap {c : Nat} {k : Collection → Result} (hk : ∀ x, KeepsMap s (k x)) :
    KeepsMap s (s.withLock i c k) := fun t h => by
  rcases withLock_next h with ⟨-, rfl⟩ | ⟨-, hgo⟩
  · rfl
  · exact hk _ t hgo

end

/-! ### The instructions, family by family -/

section
variable {s : State}

theorem execRegrd_keepsMap {b : BankId} {r : Reg} (hn : ¬needsMap (.regrd b r) s) : KeepsMap s (execRegrd b r s) := by
  unfold execRegrd
  split
  · exact readThen_keepsMap fun _ _ hu => next_keepsMap hu
  · exact absurd ‹_› hn

theorem execRegwr_keepsMap {b : BankId} {r : Reg} {w : Word} (hn : ¬needsMap (.regwr b r w) s) :
    KeepsMap s (execRegwr b r w s) := by
  unfold execRegwr
  split
  · exact writeThen_keepsMap rfl fun _ hu => next_keepsMap hu
  · exact absurd ‹_› hn

theorem execPinnew_keepsMap {h : BitVec 8} {ic : Bool} {coll : BitVec 7} {num : BitVec 8}
    (hn : ¬needsMap (.pinnew h ic coll num) s) : KeepsMap s (execPinnew h ic coll num s) := by
  unfold execPinnew
  split
  · split <;> exact next_keepsMap rfl
  · exact next_keepsMap rfl
  next hm2 hm3 =>
    split
    · exact next_keepsMap rfl
    next hnum => exact absurd ⟨hm2, hm3, not_lt.1 hnum⟩ hn

variable (s)

theorem setstateBatch_keepsMap (h : BitVec 8) (v : Bool) (p : Pin) : KeepsMap s (setstateBatch h v p s) := by
  refine withLock_keepsMap fun x => ?_
  split <;> exact next_keepsMap rfl

theorem execSetstate_keepsMap (h : BitVec 8) (v : Bool) : KeepsMap s (execSetstate h v s) := by
  unfold execSetstate
  split
  · exact writePhys_keepsMap _ _ _
  · refine withHandle_keepsMap fun p => ?_
    split
    · exact setstateBatch_keepsMap s h v p
    · exact writePhys_keepsMap _ _ _

theorem execSetimm_keepsMap (h : BitVec 8) (v : Bool) : KeepsMap s (execSetimm h v s) :=
  withHandle_keepsMap fun _ => writePhys_keepsMap _ _ _

/-- The first micro-step that GETSTATE and SETACTLOW share. -/
theorem readDirection_keepsMap (i : Instr) (h : BitVec 8) : KeepsMap s (readDirection i h s) :=
  withHandle_keepsMap fun _ => readThen_keepsMap fun _ _ hu => next_keepsMap hu

theorem execGetstate_keepsMap (h : BitVec 8) : KeepsMap s (execGetstate h s) := by
  unfold execGetstate
  split
  · exact readThen_keepsMap fun _ _ hu => next_keepsMap hu
  · exact readDirection_keepsMap s _ h

theorem execChkdir_keepsMap (h : BitVec 8) : KeepsMap s (execChkdir h s) :=
  withHandle_keepsMap fun _ => readThen_keepsMap fun _ _ hu => next_keepsMap hu

theorem execSetactlow_keepsMap (h : BitVec 8) (v : Bool) : KeepsMap s (execSetactlow h v s) := by
  unfold execSetactlow
  split
  · exact readThen_keepsMap fun _ _ hu => next_keepsMap hu
  · split <;> exact next_keepsMap rfl
  · exact writePhys_keepsMap _ _ _
  · exact readDirection_keepsMap s _ h

theorem execSetdeb_keepsMap (h : BitVec 8) (v : Bool) : KeepsMap s (execSetdeb h v s) := by
  unfold execSetdeb
  split
  · exact readThen_keepsMap fun _ _ hu => next_keepsMap hu
  · exact writeThen_keepsMap rfl fun _ hu => next_keepsMap hu
  · refine withHandle_keepsMap fun p => readThen_keepsMap fun oe u hu => ?_
    split <;> exact next_keepsMap hu

theorem execBegin_keepsMap (c : BitVec 8) : KeepsMap s (execBegin c s) :=
  withLock_keepsMap fun _ => next_keepsMap rfl

theorem execGetpend_keepsMap (h : BitVec 8) : KeepsMap s (execGetpend h s) := by
  refine withHandle_keepsMap fun p => ?_
  split
  · exact withLock_keepsMap fun _ => next_keepsMap rfl
  · exact next_keepsMap rfl

variable {s}

/-- At M1 a COMMIT that does not need the map waits for the lock. -/
theorem execCommit_waits {c : BitVec 8} (hn : ¬needsMap (.commit c) s) (hm : s.mstep < 2) :
    execCommit c s = .next (s.hold (.commit c)) := by
  cases hlock : (s.coll c.toNat).lock with
  | free => exact absurd ⟨hm, hlock⟩ hn
  | held p => exact (execCommit_of_lt_two c hm).trans (withLock_held hlock _)

theorem execCommit_keepsMap {c : BitVec 8} (hn : ¬needsMap (.commit c) s) : KeepsMap s (execCommit c s) := by
  by_cases hm : s.mstep < 2
  · rw [execCommit_waits hn hm]
    exact next_keepsMap rfl
  · unfold execCommit
    split
    · omega
    · omega
    · split
      · exact writeThen_keepsMap rfl fun _ hu => next_keepsMap hu
      · exact next_keepsMap rfl

end

/-- But for MAPOPEN, MAPCLOSE and a micro-step that comes to `RequireMap`, no micro-step changes the map. -/
theorem exec_keepsMap {i : Instr} {s : State} (hopen : i ≠ .mapopen) (hclose : i ≠ .mapclose) (hn : ¬needsMap i s) :
    KeepsMap s (exec i s) := by
  cases i with
  | mapopen => contradiction
  | mapclose => contradiction
  | regrd => exact execRegrd_keepsMap hn
  | regwr => exact execRegwr_keepsMap hn
  | pinnew => exact execPinnew_keepsMap hn
  | setstate => exact execSetstate_keepsMap s _ _
  | setimm => exact execSetimm_keepsMap s _ _
  | getstate => exact execGetstate_keepsMap s _
  | chkdir => exact execChkdir_keepsMap s _
  | setactlow => exact execSetactlow_keepsMap s _ _
  | setdeb => exact execSetdeb_keepsMap s _ _
  | beginTx => exact execBegin_keepsMap s _
  | commit => exact execCommit_keepsMap hn
  | getpend => exact execGetpend_keepsMap s _

/-! ### What a micro-step does to the map -/

theorem execMapopen_map {s t : State} (h : execMapopen s = .next t) : t.map = s.lazyOpen.map := by
  unfold execMapopen at h
  split at h
  next hm => rw [lazyOpen_of_unopened hm]; split at h <;> cases h <;> rfl
  all_goals rw [lazyOpen_of_ne (by simp [*])]; cases h; rfl

theorem execMapclose_map {s t : State} (h : execMapclose s = .next t) :
    (s.map = .opened ∧ t.map = .closed) ∨ t.map = s.map := by
  unfold execMapclose at h
  split at h
  next hm => cases h; exact .inl ⟨hm, rfl⟩
  all_goals cases h; exact .inr rfl

/-- A command that comes to `RequireMap` leaves the map as the lazy open does, whether it goes on or not. -/
theorem needsMap_map {i : Instr} {s t : State} (hn : needsMap i s) (h : exec i s = .next t) :
    t.map = s.lazyOpen.map := by
  rw [exec_of_needsMap hn] at h
  rcases requireMap_next h with ⟨-, rfl⟩ | ⟨-, hgo⟩
  · rfl
  · cases hgo; exact takeLock_map _ i

/-- A micro-step runs the lazy open, or closes an open map, or leaves the map as it was. -/
theorem exec_map_next {i : Instr} {s t : State} (h : exec i s = .next t) :
    ((i = .mapopen ∨ needsMap i s) ∧ t.map = s.lazyOpen.map) ∨
    (¬(i = .mapopen ∨ needsMap i s) ∧
      ((i = .mapclose ∧ s.map = .opened ∧ t.map = .closed) ∨ t.map = s.map)) := by
  by_cases hopen : i = .mapopen
  · subst hopen; exact .inl ⟨.inl rfl, execMapopen_map h⟩
  by_cases hn : needsMap i s
  · exact .inl ⟨.inr hn, needsMap_map hn h⟩
  refine .inr ⟨not_or.2 ⟨hopen, hn⟩, ?_⟩
  by_cases hclose : i = .mapclose
  · subst hclose; exact (execMapclose_map h).imp_left fun ho => ⟨rfl, ho⟩
  · exact .inr (exec_keepsMap hopen hclose hn t h)

/-! ### What the map can become -/

/-- From the map state `m` a run can come to the map state `m'` (R14, R72). -/
structure MapState.CanBecome (cfg : Config) (m m' : MapState) : Prop where
  notBack : m ≠ .unopened → m' ≠ .unopened
  ofFailed : m = .failed → m' = .failed
  ofClosed : m = .closed → m' = .closed
  ofOpened : m = .opened → m' = .opened ∨ m' = .closed
  ofIdentified : m = .unopened → EveryBankIdentified cfg → m' ≠ .failed
  ofNotIdentified : m = .unopened → ¬EveryBankIdentified cfg → m' = .unopened ∨ m' = .failed

section
variable {cfg : Config} {m m' m'' : MapState} {s t : State}

theorem MapState.CanBecome.refl (cfg : Config) (m : MapState) : m.CanBecome cfg m where
  notBack := id
  ofFailed := id
  ofClosed := id
  ofOpened := .inl
  ofIdentified hm _ := by simp [hm]
  ofNotIdentified hm _ := .inl hm

theorem MapState.CanBecome.trans (h : m.CanBecome cfg m') (h' : m'.CanBecome cfg m'') : m.CanBecome cfg m'' where
  notBack hm := h'.notBack (h.notBack hm)
  ofFailed hm := h'.ofFailed (h.ofFailed hm)
  ofClosed hm := h'.ofClosed (h.ofClosed hm)
  ofOpened hm := (h.ofOpened hm).elim h'.ofOpened fun hc => .inr (h'.ofClosed hc)
  ofIdentified hm hid := by
    cases m' with
    | unopened => exact h'.ofIdentified rfl hid
    | opened => rcases h'.ofOpened rfl with h'' | h'' <;> simp [h'']
    | failed => exact absurd rfl (h.ofIdentified hm hid)
    | closed => simp [h'.ofClosed rfl]
  ofNotIdentified hm hid := (h.ofNotIdentified hm hid).elim (h'.ofNotIdentified · hid) fun hf => .inr (h'.ofFailed hf)

theorem canBecome_closed (cfg : Config) : MapState.opened.CanBecome cfg .closed := by
  constructor <;> simp

/-- The lazy open of an unopened map decides by the identification strings (R65). -/
theorem lazyOpen_map_of_identified (hm : s.map = .unopened) (hid : EveryBankIdentified s.cfg) :
    s.lazyOpen.map = .opened := by
  rw [lazyOpen_of_unopened hm, openProcedure_of_identified hid]

theorem lazyOpen_map_of_not_identified (hm : s.map = .unopened) (hid : ¬EveryBankIdentified s.cfg) :
    s.lazyOpen.map = .failed := by
  rw [lazyOpen_of_unopened hm, openProcedure_of_not_identified hid]

theorem canBecome_lazyOpen (s : State) : s.map.CanBecome s.cfg s.lazyOpen.map := by
  by_cases hm : s.map = .unopened
  · constructor
    case ofIdentified => intro _ hid; simp [lazyOpen_map_of_identified hm hid]
    case ofNotIdentified => exact fun _ hid => .inr (lazyOpen_map_of_not_identified hm hid)
    all_goals simp [hm]
  · rw [lazyOpen_of_ne hm]
    exact .refl _ _

theorem exec_canBecome {i : Instr} (h : exec i s = .next t) : s.map.CanBecome s.cfg t.map := by
  rcases exec_map_next h with ⟨-, ht⟩ | ⟨-, ⟨-, hs, ht⟩ | ht⟩ <;> rw [ht]
  · exact canBecome_lazyOpen s
  · exact hs ▸ canBecome_closed _
  · exact .refl _ _

theorem runPort_canBecome (h : runPort s = .next t) : s.map.CanBecome s.cfg t.map := by
  rcases runPort_next h with rfl | ⟨p, c, e, -, -, -, -, rfl⟩ | ⟨p, i, -, hexec, -⟩
  · exact .refl _ _
  · exact .refl _ _
  · exact exec_canBecome hexec

theorem step_canBecome (h : step s = .next t) : s.map.CanBecome s.cfg t.map := by
  rcases step_next h with ⟨m, ts, -, rfl⟩ | ⟨p, -, hrun⟩
  · obtain ⟨-, hmap, -⟩ := hostMove_block { s with turns := ts } m
    rw [hmap]
    exact .refl _ _
  · exact runPort_canBecome (s := s.taking p) hrun

theorem run_canBecome {n : Nat} (h : Host.Core.run Sys2Proof.core n s = .next t) : s.map.CanBecome s.cfg t.map := by
  induction n generalizing s with
  | zero => cases h; exact .refl _ _
  | succ n ih =>
    obtain ⟨u, hstep, hrest⟩ := run_succ_next h
    exact (step_canBecome hstep).trans ((step_keeps hstep).cfg ▸ ih hrest)

end

/-- Settles O56, a micro-step by what it does to the map and a run by induction on its steps. -/
theorem mapIsOpenedAtMostOnce : Obligations.MapIsOpenedAtMostOnce := by
  refine ⟨fun i s t h => ?microStep, fun n s t h => ?run⟩
  case microStep =>
    rcases exec_map_next h with ⟨hopens, ht⟩ | ⟨hother, ht⟩
    · refine ⟨fun hm _ => ?_, fun _ hother => absurd hopens hother, fun hm => .inl ?_⟩
      · exact ⟨fun hid => ht.trans (lazyOpen_map_of_identified hm hid),
          fun hid => ht.trans (lazyOpen_map_of_not_identified hm hid)⟩
      · rw [ht, lazyOpen_of_ne hm]
    · refine ⟨fun _ hopens => absurd hopens hother, fun hm _ => ?_, fun _ => ht.symm⟩
      rcases ht with ⟨-, hs, -⟩ | ht
      · simp [hm] at hs
      · exact ht.trans hm
  case run =>
    have hrun := run_canBecome h
    exact ⟨hrun.notBack, hrun.ofFailed, hrun.ofClosed, hrun.ofOpened, hrun.ofIdentified, hrun.ofNotIdentified⟩

end Sys2Proof.Machine
end

section
/-! PROOFS. `LiveOnlyIfOpened` is an invariant (R66). While the map has never been open the state is `Dormant`: no handle
is valid and every command stands at its first micro-step. From there a micro-step opens the map or leaves the state
dormant; and an open or closed map stays one of the two. -/

namespace Sys2Proof.Machine

/-! ### A state in which nothing is live -/

/-- No handle is valid, and no command is past its first micro-step. -/
structure Dormant (s : State) : Prop where
  invalid : ∀ h, (s.pin h).valid = false
  flights : ∀ p ∈ s.ports, ∀ f, p.flight = some f → f.mstep ≤ 1

theorem liveOnlyIfOpened_iff (s : State) : LiveOnlyIfOpened s ↔ s.map = .opened ∨ s.map = .closed ∨ Dormant s :=
  or_congr_right (or_congr_right ⟨fun ⟨hpins, hflights⟩ => ⟨hpins, hflights⟩, fun d => ⟨d.invalid, d.flights⟩⟩)

section
variable {s u t : State}

theorem Dormant.congr (d : Dormant s) (hpins : u.pins = s.pins) (hports : u.ports = s.ports) : Dormant u where
  invalid h := by rw [State.pin, hpins]; exact d.invalid h
  flights := hports ▸ d.flights

theorem Dormant.setPort (d : Dormant s) {q : Port} (hq : ∀ f, q.flight = some f → f.mstep ≤ 1) :
    Dormant (s.setPort q) where
  invalid := d.invalid
  flights p hp := by
    rcases List.mem_or_eq_of_mem_set hp with hp | rfl
    · exact d.flights p hp
    · exact hq

theorem Dormant.respond (d : Dormant s) (st : Status) (v : Word) : Dormant (s.respond st v) :=
  d.setPort fun _ hf => by cases hf

theorem Dormant.raise (d : Dormant s) (st : Status) : Dormant (s.raise st) := d.respond st 0

theorem Dormant.mstep_le (d : Dormant s) : s.mstep ≤ 1 := by
  by_cases hlt : s.turn.port < s.ports.length
  · have hp := port_eq_getElem? s hlt
    cases hf : s.port.flight with
    | none => exact (mstep_of_no_flight hp hf).le
    | some f => exact mstep_of_flight hp hf ▸ d.flights _ (List.mem_of_getElem? hp) f hf
  · simp [State.mstep, State.port, Port.start, List.getElem?_eq_none (not_lt.1 hlt)]

theorem Dormant.hold (d : Dormant s) (i : Instr) : Dormant (s.hold i) :=
  d.setPort fun _ hf => by cases hf; exact d.mstep_le

end

/-! ### The micro-steps of a dormant state -/

theorem withHandle_invalid {s : State} {h : BitVec 8} (hv : (s.pin h).valid = false) (k : Pin → Result) :
    s.withHandle h k = .next (s.raise .invalidOperation) := if_neg (by simp [hv])

/-- Every command of format H begins with the handle check (R74). -/
theorem exec_invalid_handle {s : State} {i : Instr} {h : BitVec 8} (hi : handleOf i = some h) (hm : s.mstep ≤ 1)
    (hv : (s.pin h).valid = false) : exec i s = .next (s.raise .invalidOperation) := by
  cases i with
  | setimm | chkdir | getpend =>
    cases hi
    simp only [exec, execSetimm, execChkdir, execGetpend, withHandle_invalid hv]
  | setstate | getstate =>
    cases hi
    simp only [exec, execSetstate, execGetstate]
    split
    · omega
    · exact withHandle_invalid hv _
  | setdeb =>
    cases hi
    simp only [exec, execSetdeb]
    split
    · omega
    · omega
    · exact withHandle_invalid hv _
  | setactlow =>
    cases hi
    simp only [exec, execSetactlow]
    split
    · omega
    · omega
    · omega
    · exact withHandle_invalid hv _
  | _ => cases hi

section
variable {s t : State} {i : Instr}

/-- A first use of the map opens it, or ends its command. -/
theorem Dormant.afterNeedsMap (d : Dormant s) (hn : needsMap i s) (h : exec i s = .next t) :
    t.map = .opened ∨ Dormant t := by
  rw [exec_of_needsMap hn] at h
  rcases requireMap_next h with ⟨-, rfl⟩ | ⟨hopened, hgo⟩
  · exact .inr ((d.congr (lazyOpen_pins s) (lazyOpen_ports s)).raise _)
  · cases hgo
    exact .inl ((takeLock_map _ i).trans hopened)

/-- At its first micro-step a command that needs neither a handle nor the map ends or waits. -/
theorem Dormant.afterOther (d : Dormant s) (hn : ¬needsMap i s) (hh : handleOf i = none)
    (h : exec i s = .next t) : Dormant t := by
  have hm := d.mstep_le
  cases i with
  | mapopen =>
    obtain ⟨m, st, rfl⟩ := execMapopen_next h
    exact (d.congr rfl rfl : Dormant { s with map := m }).raise st
  | mapclose =>
    obtain ⟨m, rfl⟩ := execMapclose_next h
    exact (d.congr rfl rfl : Dormant { s with map := m }).raise .ok
  | regrd | regwr => exact absurd (show s.mstep ≠ 2 by omega) hn
  | pinnew hd ic coll num =>
    have hnum : 127 < num.toNat := not_le.1 fun hle => hn ⟨by omega, by omega, hle⟩
    simp only [exec, execPinnew] at h
    split at h
    · omega
    · omega
    · rw [if_pos hnum] at h; cases h; exact d.raise _
  | beginTx c =>
    simp only [exec, execBegin] at h
    rcases withLock_next h with ⟨-, rfl⟩ | ⟨-, hgo⟩
    · exact d.hold _
    · cases hgo; exact (d.congr rfl rfl : Dormant (s.setColl _ _)).respond .ok 0
  | commit c => cases (execCommit_waits hn (by omega)).symm.trans h; exact d.hold _
  | setstate | setimm | getstate | chkdir | setactlow | setdeb | getpend => cases hh

/-- From a dormant state a micro-step opens the map or leaves the state dormant. -/
theorem Dormant.afterExec (d : Dormant s) (h : exec i s = .next t) : t.map = .opened ∨ Dormant t := by
  by_cases hn : needsMap i s
  · exact d.afterNeedsMap hn h
  · cases hh : handleOf i with
    | none => exact .inr (d.afterOther hn hh h)
    | some hd =>
      rw [exec_invalid_handle hh d.mstep_le (d.invalid hd)] at h
      cases h
      exact .inr (d.raise _)

theorem Dormant.afterRunPort (d : Dormant s) (h : runPort s = .next t) : t.map = .opened ∨ Dormant t := by
  rcases runPort_next h with rfl | ⟨p, c, e, -, -, -, -, rfl⟩ | ⟨p, i, -, hexec, -⟩
  · exact .inr d
  · exact .inr (d.raise _)
  · exact d.afterExec hexec

theorem Dormant.afterStep (d : Dormant s) (h : step s = .next t) : t.map = .opened ∨ Dormant t := by
  rcases step_next h with ⟨m, ts, -, rfl⟩ | ⟨p, -, hrun⟩
  · obtain ⟨-, -, hpins, -, hports, -⟩ := hostMove_block { s with turns := ts } m
    exact .inr (d.congr hpins hports)
  · exact (d.congr rfl rfl : Dormant (s.taking p)).afterRunPort hrun

end

/-- Settles O52: an open or closed map stays one of the two by `step_canBecome`, and a dormant state stays dormant
until the map is opened. -/
theorem stepKeepsLiveOnlyIfOpened : Obligations.StepKeepsLiveOnlyIfOpened := by
  intro s t hlive h
  have hmap := step_canBecome h
  rw [liveOnlyIfOpened_iff] at hlive ⊢
  rcases hlive with hopened | hclosed | hdormant
  · exact (hmap.ofOpened hopened).imp_right .inl
  · exact .inr (.inl (hmap.ofClosed hclosed))
  · exact (hdormant.afterStep h).imp_right .inr

end Sys2Proof.Machine
end

section
/-! PROOFS. Pin addresses and polarity (R73, R76), and what driving a pin's latch bit through its mask does to a word
and to a bank (R37, R38, R77). -/

namespace Sys2Proof.Machine

/-! ### The address of a pin -/

theorem pinBit_lt (n : BitVec 7) : pinBit n < 32 := Nat.mod_lt _ (by decide)

theorem bitmask_getLsbD {i : Nat} (hi : i < 32) (k : Nat) : (bitmask i).getLsbD k = decide (k = i) := by
  rw [bitmask, BitVec.shiftLeft_eq_mul_twoPow, BitVec.one_mul, BitVec.getLsbD_twoPow]
  simp [hi, eq_comm]

theorem pinMask_getLsbD (n : BitVec 7) (k : Nat) : (pinMask n).getLsbD k = decide (k = pinBit n) :=
  bitmask_getLsbD (pinBit_lt n) k

/-- Quotient and remainder by 32 give the number back. -/
theorem pinAddress_injective {n m : BitVec 7} (hbank : pinBank n = pinBank m) (hbit : pinBit n = pinBit m) : n = m := by
  have hdiv : n.toNat / 32 = m.toNat / 32 := congrArg Fin.val hbank
  have hmod : n.toNat % 32 = m.toNat % 32 := hbit
  exact BitVec.eq_of_toNat_eq (by omega)

/-- Settles O10. -/
theorem pinAddressIsInjective : Obligations.PinAddressIsInjective :=
  ⟨fun n => ⟨rfl, rfl, pinMask_getLsbD n⟩, fun _ _ => pinAddress_injective, by decide, by decide, by decide,
    by decide⟩

/-- Past PINNEW's first micro-step the low seven bits of the number are the number (R75, log 31). -/
theorem pinBank_setWidth {num : BitVec 8} (hnum : num.toNat ≤ 127) :
    (pinBank (num.setWidth 7)).val = num.toNat / 32 := by
  have hlow : num.toNat % 128 = num.toNat := Nat.mod_eq_of_lt (by omega)
  simp [pinBank, BitVec.toNat_setWidth, hlow]

/-! ### Polarity -/

theorem logical_physical (p : Pin) (v : Bool) : p.logical (p.physical v) = v := by
  simp [Pin.logical, Pin.physical]

/-- Settles O11. -/
theorem polarityIsExclusiveOr : Obligations.PolarityIsExclusiveOr :=
  fun p v => ⟨rfl, rfl, logical_physical p v, fun hal => by simp [Pin.physical, hal],
    fun hal => by simp [Pin.physical, hal]⟩

/-! ### Driving bits of a word -/

theorem driven_getLsbD (w m : Word) (p : Bool) (k : Nat) :
    (driven w m p).getLsbD k = if m.getLsbD k = true then p else w.getLsbD k := by
  have hlow : w.getLsbD k = true → k < 32 := BitVec.lt_of_getLsbD
  cases p <;> cases hm : m.getLsbD k <;> simp_all [driven]

theorem driven_pinMask_getLsbD (w : Word) (n : BitVec 7) (p : Bool) :
    (driven w (pinMask n) p).getLsbD (pinBit n) = p := by
  simp [driven_getLsbD, pinMask_getLsbD]

/-- Outside the mask nothing changes. -/
theorem driven_andNot (w m : Word) (p : Bool) : driven w m p &&& ~~~m = w &&& ~~~m := by
  apply BitVec.eq_of_getLsbD_eq
  intro k hk
  cases hm : m.getLsbD k <;> simp [driven_getLsbD, hm]

/-- Two bits of one word are driven in either order. -/
theorem driven_comm (w : Word) {n k : BitVec 7} (h : pinBit n ≠ pinBit k) (p q : Bool) :
    driven (driven w (pinMask n) p) (pinMask k) q = driven (driven w (pinMask k) q) (pinMask n) p := by
  apply BitVec.eq_of_getLsbD_eq
  intro j _
  simp only [driven_getLsbD, pinMask_getLsbD, decide_eq_true_eq]
  split_ifs with hk hn
  · exact absurd (hn.symm.trans hk) h
  all_goals rfl

/-! ### Driving the latch of a bank -/

section
variable (s : State)

theorem drive_bank (b d : BankId) (m : Word) (p : Bool) :
    (s.drive b m p).bank d =
      if d = b then { s.bank b with dataOut := driven (s.bank b).dataOut m p } else s.bank d := setBank_bank ..

theorem drive_bank_self (b : BankId) (m : Word) (p : Bool) :
    (s.drive b m p).bank b = { s.bank b with dataOut := driven (s.bank b).dataOut m p } := setBank_bank_self ..

theorem drive_clkEn (b d : BankId) (m : Word) (p : Bool) : ((s.drive b m p).bank d).clkEn = (s.bank d).clkEn := by
  rw [drive_bank]
  split
  next hd => rw [hd]
  next => rfl

theorem drive_latch (n : BitVec 7) (p : Bool) :
    ((s.drive (pinBank n) (pinMask n) p).bank (pinBank n)).dataOut.getLsbD (pinBit n) = p := by
  rw [drive_bank_self]
  exact driven_pinMask_getLsbD _ n p

/-- Two pins are driven in either order: they are of two banks, or two bits of one. -/
theorem drive_comm {n k : BitVec 7} (h : n ≠ k) (p q : Bool) :
    ((s.drive (pinBank n) (pinMask n) p).drive (pinBank k) (pinMask k) q).banks =
      ((s.drive (pinBank k) (pinMask k) q).drive (pinBank n) (pinMask n) p).banks := by
  refine perBank_ext fun d => ?_
  change State.bank _ d = State.bank _ d
  by_cases hbank : pinBank n = pinBank k
  · have hbit : pinBit n ≠ pinBit k := fun hbit => h (pinAddress_injective hbank hbit)
    simp only [drive_bank, hbank, if_true, driven_comm _ hbit]
    split <;> rfl
  · simp only [drive_bank, hbank, Ne.symm hbank, if_false]
    split_ifs with hk hn
    · exact absurd (hn.symm.trans hk) hbank
    all_goals rfl

end

theorem State.Accessible.drive {s : State} {d : BankId} (h : s.Accessible d) (b : BankId) (m : Word) (p : Bool) :
    (s.drive b m p).Accessible d :=
  ⟨h.opened, (drive_clkEn s b d m p).trans h.clocked, h.noBusError⟩

end Sys2Proof.Machine
end

section
/-! PROOFS. The single-bit write `WritePhys` (R77): the micro-steps that make one, said once in `exec_of_physWrite` for
all the commands, and what two of them of two ports do to the banks (R84). -/

namespace Sys2Proof.Machine

/-! ### The micro-steps that are a single-bit write -/

theorem execSetstate_of_ne_two {s : State} (hm : s.mstep ≠ 2) (h : BitVec 8) (v : Bool) :
    execSetstate h v s = s.withHandle h fun p =>
      if p.ic then setstateBatch h v p s else s.writePhys (.setstate h v) p.bank p.mask (p.physical v) := by
  unfold execSetstate
  split
  · contradiction
  · rfl

section
variable {s t u : State} {i : Instr} {b : BankId} {m : Word} {p : Bool}

theorem exec_of_physWrite (hw : physWrite i s = some (b, m, p)) : exec i s = s.writePhys i b m p := by
  cases i with
  | setstate h v =>
    simp only [physWrite] at hw
    split at hw
    next hm => cases hw; simp only [exec, execSetstate, hm]
    next hm =>
      split at hw
      next hfree =>
        obtain ⟨hvalid, hic⟩ := hfree
        cases hw
        simp only [exec, execSetstate_of_ne_two hm, withHandle_valid hvalid, hic, Bool.false_eq_true, if_false]
      next => cases hw
  | setimm h v =>
    simp only [physWrite] at hw
    split at hw
    next hvalid => cases hw; simp only [exec, execSetimm, withHandle_valid hvalid]
    next => cases hw
  | setactlow h v =>
    simp only [physWrite] at hw
    split at hw
    next hm => cases hw; simp only [exec, execSetactlow, hm]
    next => cases hw
  | _ => cases hw

theorem exec_of_physWrite_accessible (hw : physWrite i s = some (b, m, p)) (ha : s.Accessible b) :
    exec i s = .next ((s.drive b m p).respond .ok 0) :=
  (exec_of_physWrite hw).trans (writePhys_pass ha i m p)

/-- The write is the bank access of its micro-step. -/
theorem nextAccess_of_physWrite (hw : physWrite i s = some (b, m, p)) : nextAccess i s = some b := by
  cases i with
  | setstate h v =>
    simp only [physWrite] at hw
    simp only [nextAccess]
    split at hw
    next hm => cases hw; rw [if_pos hm]
    next hm =>
      split at hw
      next hfree => cases hw; simp [hm, hfree, State.validBank]
      next => cases hw
  | setimm h v =>
    simp only [physWrite] at hw
    split at hw
    next hvalid => cases hw; exact if_pos hvalid
    next => cases hw
  | setactlow h v =>
    simp only [physWrite] at hw
    split at hw
    next hm => cases hw; simp [nextAccess, hm]
    next => cases hw
  | _ => cases hw

/-- The write depends on the slots and on where the port of the turn stands. -/
theorem physWrite_congr (hpins : u.pins = s.pins) (hport : u.port = s.port) (i : Instr) :
    physWrite i u = physWrite i s := by
  have hpin : ∀ h, u.pin h = s.pin h := fun h => by simp only [State.pin, hpins]
  have hm : u.mstep = s.mstep := by simp only [State.mstep, hport]
  have ht : u.temps = s.temps := by simp only [State.temps, hport]
  cases i with
  | setstate | setimm | setactlow => simp only [physWrite, hpin, hm, ht]
  | _ => rfl

end

/-! ### Two of them of two ports -/

theorem respond_ports_length (s : State) (st : Status) (v : Word) : (s.respond st v).ports.length = s.ports.length :=
  List.length_set

/-- An answer given to one port leaves every other port where it stands. -/
theorem respond_port_of_ne {s : State} {q : PortTurn} (h : q.port ≠ s.turn.port) (st : Status) (v : Word) :
    ({ s.respond st v with turn := q } : State).port = ({ s with turn := q } : State).port := by
  rw [State.port, State.port, List.getD_eq_getElem?_getD, List.getD_eq_getElem?_getD]
  exact congrArg (·.getD (Port.start [])) (setPort_ports_ne s _ h)

theorem physWrite_after_respond {s : State} {q : PortTurn} (h : q.port ≠ s.turn.port) (st : Status) (v : Word)
    (i : Instr) : physWrite i { s.respond st v with turn := q } = physWrite i { s with turn := q } :=
  physWrite_congr (s := { s with turn := q }) (u := { s.respond st v with turn := q }) rfl
    (respond_port_of_ne h st v) i

/-- The bank that another port's write drives is no operand of a single-bit write. -/
theorem physWrite_after_drive (s : State) (p q : PortTurn) (b : BankId) (m : Word) (v : Bool) (i : Instr) :
    physWrite i { ({ s with turn := p } : State).drive b m v with turn := q } = physWrite i { s with turn := q } :=
  physWrite_congr (s := { s with turn := q }) rfl rfl i

/-- Two single-bit writes of two ports, one after the other, drive the one mask and then the other, and are both
answered OK. -/
theorem exec_two_physWrites {s : State} {p q : PortTurn} {i j : Instr} {b d : BankId} {m l : Word} {v w : Bool}
    (hp : p.port < s.ports.length) (hq : q.port < s.ports.length) (hne : p.port ≠ q.port)
    (ha : ({ s with turn := p } : State).Accessible b) (hd : ({ s with turn := q } : State).Accessible d)
    (hi : physWrite i { s with turn := p } = some (b, m, v))
    (hj : physWrite j { s with turn := q } = some (d, l, w)) :
    ∃ t u, exec i { s with turn := p } = .next t ∧ exec j { t with turn := q } = .next u ∧
      t.port.rsp = ⟨.ok, 0⟩ ∧ u.port.rsp = ⟨.ok, 0⟩ ∧ u.banks = ((s.drive b m v).drive d l w).banks := by
  have hsecond : physWrite j { (({ s with turn := p } : State).drive b m v).respond .ok 0 with turn := q } =
      some (d, l, w) := by
    rw [physWrite_after_respond hne.symm, physWrite_after_drive, hj]
  have haccess : ({ (({ s with turn := p } : State).drive b m v).respond .ok 0 with turn := q } : State).Accessible d :=
    ⟨hd.opened, (drive_clkEn s b d m v).trans hd.clocked, hd.noBusError⟩
  have hlt : q.port < ((({ s with turn := p } : State).drive b m v).respond .ok 0).ports.length := by
    rw [respond_ports_length]
    exact hq
  refine ⟨_, _, exec_of_physWrite_accessible hi ha, exec_of_physWrite_accessible hsecond haccess, ?_, ?_, rfl⟩
  · exact congrArg Port.rsp (respond_port _ .ok 0 hp)
  · exact congrArg Port.rsp (respond_port _ .ok 0 hlt)

/-- Settles O32: in either order the banks are those with the one pin driven and then the other. -/
theorem singleBitWritesCommute : Obligations.SingleBitWritesCommute := by
  intro s p q i j n k v w hp hq hne hpbus hqbus hopen hn hk hi hj
  have haccess : ({ s with turn := p } : State).Accessible (pinBank n) := ⟨hopen, hn, hpbus⟩
  have haccess' : ({ s with turn := q } : State).Accessible (pinBank k) := ⟨hopen, hk, hqbus⟩
  obtain ⟨a, ab, ha, hab, harsp, habrsp, habanks⟩ := exec_two_physWrites hp hq hne haccess haccess' hi hj
  obtain ⟨b, ba, hb, hba, hbrsp, hbarsp, hbabanks⟩ := exec_two_physWrites hq hp hne.symm haccess' haccess hj hi
  refine ⟨a, ab, b, ba, ha, hab, hb, hba, harsp, habrsp, hbrsp, hbarsp, fun hnk => ?different, fun hnk => ?same⟩
  case different => rw [habanks, hbabanks, drive_comm s hnk]
  case same =>
    subst hnk
    rw [State.bank, State.bank, habanks, hbabanks]
    exact ⟨drive_latch _ n w, drive_latch _ n v⟩

end Sys2Proof.Machine
end

section
/-! PROOFS. The Direct Pin commands undisturbed (41_direct_pin.md): each micro-step of PINNEW, GETSTATE, CHKDIR and
SETDEB when its access goes through, and the commands that are made of them. -/

namespace Sys2Proof.Machine

/-- Settles O36: the handle check is the first thing a command of format H does, and the decoder tests the range. -/
theorem handleCheckComesFirst : Obligations.HandleCheckComesFirst := by
  refine ⟨fun s i h hi hm hv => exec_invalid_handle hi hm.le hv, fun cfg c i h hi hd => ?range⟩
  case range =>
    have hw : i.wellFormed cfg = true := decode_wellFormed hd
    cases i with
    | setstate | setimm | getstate | chkdir | setactlow | setdeb | getpend => cases hi; exact of_decide_eq_true hw
    | _ => cases hi

/-! ### PINNEW (R75) -/

/-- The order of a clock's start and a position does not matter. -/
theorem enter_startClock (s : State) (i : Instr) (n : Nat) (x : Temps) (b : BankId) :
    (s.enter i n x).startClock b = (s.startClock b).enter i n x := rfl

section
variable {s : State} {h num : BitVec 8} {ic : Bool} {coll : BitVec 7}

theorem exec_pinnew_above (hm : s.mstep = 1) (hnum : 127 < num.toNat) :
    exec (.pinnew h ic coll num) s = .next (s.raise .invalidOperation) := by
  simp only [exec, execPinnew, hm, hnum, if_true]

theorem exec_pinnew_first (hm : s.mstep = 1) (hnum : num.toNat ≤ 127) (ho : s.map = .opened) :
    exec (.pinnew h ic coll num) s = .next (s.enter (.pinnew h ic coll num) 2 Temps.none) := by
  rw [exec_of_needsMap (i := .pinnew h ic coll num) (by simp [needsMap, hm, hnum]), requireMap_opened ho]
  rfl

theorem exec_pinnew_second_failed (hm : s.mstep = 2) (hexport : s.turn.exportOk = false) :
    exec (.pinnew h ic coll num) s = .next (s.raise .resourceUnavailable) := by
  simp only [exec, execPinnew, hm, hexport, Bool.false_eq_true, if_false]

theorem exec_pinnew_second_ok (hm : s.mstep = 2) (hexport : s.turn.exportOk = true) :
    exec (.pinnew h ic coll num) s =
      .next ((s.startClock (pinBank (num.setWidth 7))).enter (.pinnew h ic coll num) 3 Temps.none) := by
  simp only [exec, execPinnew, hm, hexport, if_true]

theorem exec_pinnew_third (hm : s.mstep = 3) :
    exec (.pinnew h ic coll num) s = .next ((s.setPin h (Pin.bound (num.setWidth 7) ic coll)).respond .ok 0) := by
  simp only [exec, execPinnew, hm]

end

/-- Settles O17: the position that each micro-step leaves is where the next one goes on. -/
theorem pinnewBindsAfterExport : Obligations.PinnewBindsAfterExport := by
  refine fun s h ic coll num b hs => ⟨exec_pinnew_above hs.first, fun hnum hb ho => ?_⟩
  obtain rfl : pinBank (num.setWidth 7) = b := Fin.ext ((pinBank_setWidth hnum).trans hb.symm)
  have hlt := hs.exists_port
  have hsecond := enter_mstep s (.pinnew h ic coll num) 2 Temps.none hlt
  have hthird := enter_mstep (s.startClock (pinBank (num.setWidth 7))) (.pinnew h ic coll num) 3 Temps.none hlt
  refine ⟨_, exec_pinnew_first hs.first hnum ho, fun hexport => ?failed, fun hexport =>
    ⟨(s.startClock (pinBank (num.setWidth 7))).enter (.pinnew h ic coll num) 3 Temps.none, ?ok, ?clock, ?bound⟩⟩
  case failed => rw [exec_pinnew_second_failed hsecond hexport, State.raise, enter_respond _ _ _ _ _ _ hlt, State.raise]
  case ok =>
    rw [exec_pinnew_second_ok hsecond hexport, enter_startClock, enter_enter _ _ _ _ _ _ _ (by exact hlt)]
  case clock => exact congrArg Bank.clkEn (setBank_bank_self s _ _)
  case bound => rw [exec_pinnew_third hthird, enter_setPin, enter_respond _ _ _ _ _ _ (by exact hlt)]; rfl

/-! ### The direction and the level of a pin (R41, R79) -/

/-- The direction that a command reads for a pin (R80). -/
def State.direction (s : State) (p : Pin) : Direction := directionOf s.cfg (s.bank p.bank).oe p.bit

section
variable {s : State} {p : Pin}

theorem direction_of_isOut (h : s.isOut p) : s.direction p = .output := if_pos h

theorem direction_of_not_isOut (h : ¬s.isOut p) : s.direction p = .input := if_neg h

theorem levelOf_of_isOut (h : s.isOut p) : s.levelOf p = (s.bank p.bank).dataOut.getLsbD p.bit := if_pos h

/-- The register that GETSTATE chooses by the direction holds the pin's level. -/
theorem readWord_level (s : State) (p : Pin) :
    (s.readWord p.bank (levelRegister (s.direction p))).getLsbD p.bit = s.levelOf p := by
  by_cases h : s.isOut p
  · rw [direction_of_isOut h, levelOf_of_isOut h]; rfl
  · rw [direction_of_not_isOut h]; exact (if_neg h).symm

/-- An OUT pin has the level that it was driven to. -/
theorem levelOf_drive (h : s.isOut p) (v : Bool) : (s.drive p.bank p.mask v).levelOf p = v := by
  have hout : (s.drive p.bank p.mask v).isOut p := by
    rw [State.isOut, drive_bank_self]
    exact h
  exact (levelOf_of_isOut hout).trans (drive_latch s p.num v)

theorem boolData_eq (v : Bool) : boolData v = if v = true then 1 else 0 := by cases v <;> rfl

end

/-! ### GETSTATE and CHKDIR (R79, R80) -/

section
variable {s : State} {h : BitVec 8}

/-- The first micro-step that GETSTATE and SETACTLOW share. -/
theorem readDirection_accessible (hvalid : (s.pin h).valid = true) (ha : s.Accessible (s.pin h).bank) (i : Instr) :
    readDirection i h s = .next (s.enter i 2 { Temps.none with dir := s.direction (s.pin h) }) :=
  (withHandle_valid hvalid _).trans (readThen_accessible ha i .oe _)

theorem exec_getstate_first (hm : s.mstep = 1) (hvalid : (s.pin h).valid = true)
    (ha : s.Accessible (s.pin h).bank) : exec (.getstate h) s =
      .next (s.enter (.getstate h) 2 { Temps.none with dir := s.direction (s.pin h) }) := by
  simp only [exec, execGetstate, hm, readDirection_accessible hvalid ha]

theorem exec_getstate_second (hm : s.mstep = 2) (ha : s.Accessible (s.pin h).bank) :
    exec (.getstate h) s = .next (s.respond .ok (boolData ((s.pin h).logical
      ((s.readWord (s.pin h).bank (levelRegister s.temps.dir)).getLsbD (s.pin h).bit)))) := by
  simp only [exec, execGetstate, hm, readThen_accessible ha, afterRead_levelRegister]

/-- GETSTATE's second micro-step right after its first. -/
theorem exec_getstate_entered (hlt : s.turn.port < s.ports.length) (ha : s.Accessible (s.pin h).bank) :
    exec (.getstate h) (s.enter (.getstate h) 2 { Temps.none with dir := s.direction (s.pin h) }) =
      .next (s.respond .ok (boolData ((s.pin h).logical (s.levelOf (s.pin h))))) := by
  rw [exec_getstate_second (enter_mstep _ _ _ _ hlt) (ha.enter ..), enter_temps _ _ _ _ hlt,
    enter_respond _ _ _ _ _ _ hlt, enter_readWord, enter_pin, readWord_level]

theorem runInstr_getstate (hs : s.Ready) (hvalid : (s.pin h).valid = true) (ha : s.Accessible (s.pin h).bank) :
    runInstr (.getstate h) 2 s = .next (s.respond .ok (boolData ((s.pin h).logical (s.levelOf (s.pin h))))) := by
  simp only [runInstr, exec_getstate_first hs.first hvalid ha, exec_getstate_entered hs.exists_port ha]

theorem exec_chkdir (hvalid : (s.pin h).valid = true) (ha : s.Accessible (s.pin h).bank) :
    exec (.chkdir h) s = .next (s.respond .ok (directionData (s.direction (s.pin h)))) := by
  simp only [exec, execChkdir, withHandle_valid hvalid, readThen_accessible ha]
  rfl

end

/-- Settles O21. -/
theorem getstateAnswersTheLogicalLevel : Obligations.GetstateAnswersTheLogicalLevel := fun s h hs hvalid ha =>
  ⟨_, exec_getstate_first hs.first hvalid ha, by
    rw [exec_getstate_entered hs.exists_port ha, boolData_eq, Pin.logical]⟩

/-- Settles O22. -/
theorem chkdirAnswersTheDirection : Obligations.ChkdirAnswersTheDirection := by
  refine fun s h hvalid ha => ⟨fun hout => ?out, fun hin => ?input⟩
  case out => rw [exec_chkdir hvalid ha, direction_of_isOut hout, directionData]
  case input => rw [exec_chkdir hvalid ha, direction_of_not_isOut hin, directionData]

/-! ### SETSTATE and SETIMM, and what GETSTATE answers after them (R78, R83, R98) -/

/-- What SETSTATE carries to its second micro-step on the idle path (R87). -/
def Pin.writeTemps (p : Pin) (v : Bool) : Temps :=
  { Temps.none with bank := p.bank, mask := p.mask, phys := p.physical v }

section
variable {s : State} {h : BitVec 8}

theorem exec_setstate_free (hm : s.mstep = 1) (hvalid : (s.pin h).valid = true) (hic : (s.pin h).ic = false)
    (ha : s.Accessible (s.pin h).bank) (v : Bool) : exec (.setstate h v) s =
      .next ((s.drive (s.pin h).bank (s.pin h).mask ((s.pin h).physical v)).respond .ok 0) :=
  exec_of_physWrite_accessible (by simp [physWrite, hm, hvalid, hic]) ha

theorem exec_setimm (hvalid : (s.pin h).valid = true) (ha : s.Accessible (s.pin h).bank) (v : Bool) :
    exec (.setimm h v) s =
      .next ((s.drive (s.pin h).bank (s.pin h).mask ((s.pin h).physical v)).respond .ok 0) :=
  exec_of_physWrite_accessible (by simp [physWrite, hvalid]) ha

theorem exec_setstate_idle_first (hm : s.mstep = 1) (hvalid : (s.pin h).valid = true) (hic : (s.pin h).ic = true)
    (hlock : (s.coll (s.pin h).coll.toNat).lock = .free)
    (hidle : (s.coll (s.pin h).coll.toNat).recording = false) (v : Bool) :
    exec (.setstate h v) s = .next (s.enter (.setstate h v) 2 ((s.pin h).writeTemps v)) := by
  rw [exec, execSetstate_first_batch v hm hvalid hic, setstateBatch, withLock_free hlock, hidle]
  rfl

/-- The order of a bank's drive and a position does not matter. -/
theorem enter_drive (s : State) (i : Instr) (n : Nat) (x : Temps) (b : BankId) (m : Word) (v : Bool) :
    (s.enter i n x).drive b m v = (s.drive b m v).enter i n x := rfl

theorem exec_setstate_idle_second (hlt : s.turn.port < s.ports.length) {p : Pin} (ha : s.Accessible p.bank) (v : Bool) :
    exec (.setstate h v) (s.enter (.setstate h v) 2 (p.writeTemps v)) =
      .next ((s.drive p.bank p.mask (p.physical v)).respond .ok 0) := by
  have hw : physWrite (.setstate h v) (s.enter (.setstate h v) 2 (p.writeTemps v)) =
      some (p.bank, p.mask, p.physical v) := by
    rw [physWrite, if_pos (enter_mstep _ _ _ _ hlt), enter_temps _ _ _ _ hlt]
    rfl
  rw [exec_of_physWrite_accessible hw (ha.enter ..), enter_drive, enter_respond _ _ _ _ _ _ (by exact hlt)]

/-- An OUT pin that has been driven to the physical level of `v` is read back as `v`. -/
theorem getstate_after_drive (hs : s.Ready) (hvalid : (s.pin h).valid = true) (ha : s.Accessible (s.pin h).bank)
    (hout : s.isOut (s.pin h)) (v : Bool) :
    ∃ u, runInstr (.getstate h) 2
        ((s.drive (s.pin h).bank (s.pin h).mask ((s.pin h).physical v)).respond .ok 0) = .next u ∧
      u.port.rsp = ⟨.ok, if v then 1 else 0⟩ := by
  have hready := respond_ready (s := s.drive (s.pin h).bank (s.pin h).mask ((s.pin h).physical v)) hs.exists_port .ok 0
  have hdata : boolData ((s.pin h).logical
      ((s.drive (s.pin h).bank (s.pin h).mask ((s.pin h).physical v)).levelOf (s.pin h))) = if v then 1 else 0 := by
    rw [levelOf_drive hout, logical_physical, boolData_eq]
  refine ⟨_, runInstr_getstate hready hvalid ((ha.drive ..).respond ..), ?_⟩
  rw [respond_port _ _ _ hready.exists_port]
  exact congrArg (Response.mk .ok) hdata

end

/-- Settles O18. -/
theorem setstateDrivesAFreePin : Obligations.SetstateDrivesAFreePin := fun _ _ v hs hvalid hic ha =>
  exec_setstate_free hs.first hvalid hic ha v

/-- Settles O30: each way to set the pin drives it to the physical level of `v`. -/
theorem setThenGetRoundTrip : Obligations.SetThenGetRoundTrip := by
  intro s h v hs hvalid ha hout
  obtain ⟨u, hget, hrsp⟩ := getstate_after_drive hs hvalid ha hout v
  refine ⟨fun hic => ⟨_, u, exec_setstate_free hs.first hvalid hic ha v, hget, hrsp⟩,
    fun hic hlock hidle => ⟨_, u, ?idle, hget, hrsp⟩, _, u, exec_setimm hvalid ha v, hget, hrsp⟩
  case idle =>
    simp only [runInstr, exec_setstate_idle_first hs.first hvalid hic hlock hidle,
      exec_setstate_idle_second hs.exists_port ha]

/-! ### SETDEB (R81) -/

section
variable {s : State} {h : BitVec 8}

theorem exec_setdeb_out (hm : s.mstep = 1) (hvalid : (s.pin h).valid = true) (ha : s.Accessible (s.pin h).bank)
    (hout : s.isOut (s.pin h)) (v : Bool) : exec (.setdeb h v) s = .next (s.raise .invalidOperation) := by
  have hdir : directionOf s.cfg (s.bank (s.pin h).bank).oe (s.pin h).bit = .output := direction_of_isOut hout
  simp only [exec, execSetdeb, hm, withHandle_valid hvalid, readThen_accessible ha, State.readWord,
    State.afterRead, hdir]

theorem exec_setdeb_first (hm : s.mstep = 1) (hvalid : (s.pin h).valid = true) (ha : s.Accessible (s.pin h).bank)
    (hin : ¬s.isOut (s.pin h)) (v : Bool) : exec (.setdeb h v) s = .next (s.enter (.setdeb h v) 2
      { Temps.none with bank := (s.pin h).bank, mask := (s.pin h).mask }) := by
  have hdir : directionOf s.cfg (s.bank (s.pin h).bank).oe (s.pin h).bit = .input := direction_of_not_isOut hin
  simp only [exec, execSetdeb, hm, withHandle_valid hvalid, readThen_accessible ha, State.readWord,
    State.afterRead, hdir]

theorem exec_setdeb_second (hm : s.mstep = 2) (ha : s.Accessible s.temps.bank) (v : Bool) :
    exec (.setdeb h v) s =
      .next (s.enter (.setdeb h v) 3 { s.temps with word := (s.bank s.temps.bank).debEn }) := by
  simp only [exec, execSetdeb, hm, readThen_accessible ha, State.readWord, State.afterRead]

theorem exec_setdeb_third (hm : s.mstep = 3) (ha : s.Accessible s.temps.bank) (v : Bool) :
    exec (.setdeb h v) s = .next ((s.setBank s.temps.bank
      { s.bank s.temps.bank with debEn := driven s.temps.word s.temps.mask v }).respond .ok 0) := by
  simp only [exec, execSetdeb, hm]
  exact writeThen_accessible ha rfl _ _ _

end

/-- Settles O24: the bank, the mask and then the word read are carried to the write. -/
theorem setdebWritesOneBitOfAnInPin : Obligations.SetdebWritesOneBitOfAnInPin := by
  refine fun s h v hs hvalid ha => ⟨fun hout => exec_setdeb_out hs.first hvalid ha hout v, fun hin => ?_⟩
  have hlt := hs.exists_port
  refine ⟨_, s.enter (.setdeb h v) 3 { Temps.none with
    bank := (s.pin h).bank, mask := (s.pin h).mask, word := (s.bank (s.pin h).bank).debEn },
    exec_setdeb_first hs.first hvalid ha hin v, ?read, ?write⟩
  case read =>
    rw [exec_setdeb_second (enter_mstep _ _ _ _ hlt) (by rw [enter_temps _ _ _ _ hlt]; exact ha.enter ..),
      enter_enter _ _ _ _ _ _ _ hlt, enter_temps _ _ _ _ hlt, enter_bank]
  case write =>
    rw [exec_setdeb_third (enter_mstep _ _ _ _ hlt) (by rw [enter_temps _ _ _ _ hlt]; exact ha.enter ..),
      enter_temps _ _ _ _ hlt, enter_setBank, enter_respond _ _ _ _ _ _ (by exact hlt), enter_bank]

end Sys2Proof.Machine
end

section
/-! PROOFS. The frames of SETSTATE, SETIMM, SETDEB and PINNEW: what each micro-step leaves as it was. -/

namespace Sys2Proof.Machine

/-! ### A part written over itself -/

theorem set_getD_self {α : Type} (l : List α) (n : Nat) (d : α) : l.set n (l.getD n d) = l := by
  by_cases h : n < l.length
  · exact set_of_getElem? (by simp [h])
  · exact List.set_eq_of_length_le (not_lt.1 h)

theorem setPin_pin_eq (s : State) (h : BitVec 8) : s.setPin h (s.pin h) = s := by
  rw [State.setPin, State.pin, set_getD_self]

theorem setColl_coll_eq (s : State) (c : Nat) : s.setColl c (s.coll c) = s := by
  rw [State.setColl, State.coll, set_getD_self]

/-! ### Single-bit writes -/

/-- A micro-step that is a single-bit write changes nothing but the port and the latch bits of its mask, and no bank
if it does not go through. -/
theorem physWrite_frame {s t : State} {i : Instr} {b : BankId} {m : Word} {p : Bool}
    (hw : physWrite i s = some (b, m, p)) (h : exec i s = .next t) :
    ∃ d, State.onlyPort (s.setBank b { s.bank b with dataOut := d }) t ∧
      d &&& ~~~m = (s.bank b).dataOut &&& ~~~m ∧
      (nextAccess i s = none ∨ ¬s.Accessible b → t.banks = s.banks) := by
  rw [exec_of_physWrite hw] at h
  rcases writePhys_next h with ⟨-, rfl⟩ | ⟨-, rfl⟩ | ⟨hpass, rfl⟩
  · exact ⟨(s.bank b).dataOut, (setBank_bank_eq s b).symm ▸ onlyPort_hold s i, rfl, fun _ => rfl⟩
  · exact ⟨(s.bank b).dataOut, (setBank_bank_eq s b).symm ▸ onlyPort_raise s _, rfl, fun _ => rfl⟩
  · refine ⟨driven (s.bank b).dataOut m p, onlyPort_respond _ .ok 0, driven_andNot _ m p, fun hno => ?_⟩
    exact absurd hno (by simp [nextAccess_of_physWrite hw, accessible_of_gate hpass])

theorem execSetimm_frame {s t : State} {h : BitVec 8} {v : Bool} (hexec : execSetimm h v s = .next t) :
    ∃ d, State.onlyPort (s.setBank (s.pin h).bank { s.bank (s.pin h).bank with dataOut := d }) t ∧
      d &&& ~~~(s.pin h).mask = (s.bank (s.pin h).bank).dataOut &&& ~~~(s.pin h).mask ∧
      (nextAccess (.setimm h v) s = none ∨ ¬s.Accessible (s.pin h).bank → t.banks = s.banks) := by
  rcases withHandle_next hexec with ⟨-, rfl⟩ | ⟨hvalid, -⟩
  · exact ⟨(s.bank (s.pin h).bank).dataOut, (setBank_bank_eq s _).symm ▸ onlyPort_raise s _, rfl, fun _ => rfl⟩
  · exact physWrite_frame (i := .setimm h v) (p := (s.pin h).physical v) (by simp [physWrite, hvalid]) hexec

/-! ### The masks of a Collection -/

/-- `x` is the Collection `c` but for the bits of `m` in the two masks of bank `b`. -/
structure Collection.ChangedAt (b : BankId) (m : Word) (c x : Collection) : Prop where
  recording : x.recording = c.recording
  lock : x.lock = c.lock
  pset : ∀ d, x.pset.get d &&& ~~~m = c.pset.get d &&& ~~~m
  pclr : ∀ d, x.pclr.get d &&& ~~~m = c.pclr.get d &&& ~~~m
  others : ∀ d, d ≠ b → x.pset.get d = c.pset.get d ∧ x.pclr.get d = c.pclr.get d

theorem Collection.ChangedAt.refl (b : BankId) (m : Word) (c : Collection) : Collection.ChangedAt b m c c :=
  ⟨rfl, rfl, fun _ => rfl, fun _ => rfl, fun _ _ => ⟨rfl, rfl⟩⟩

/-- Buffering a level drives the pin's bit in one mask to it and in the sibling mask to its inverse (R87). -/
theorem buffer_eq (c : Collection) (b : BankId) (m : Word) (p : Bool) :
    c.buffer b m p =
      { c with
        pset := c.pset.set b (driven (c.pset.get b) m p)
        pclr := c.pclr.set b (driven (c.pclr.get b) m (!p)) } := by
  cases p <;> rfl

theorem perBank_set_driven_andNot (q : PerBank Word) (b d : BankId) (m : Word) (p : Bool) :
    (q.set b (driven (q.get b) m p)).get d &&& ~~~m = q.get d &&& ~~~m := by
  rw [perBank_get_set]
  split
  next hd => rw [driven_andNot, hd]
  next => rfl

theorem buffer_changedAt (c : Collection) (b : BankId) (m : Word) (p : Bool) :
    Collection.ChangedAt b m c (c.buffer b m p) := by
  rw [buffer_eq]
  exact ⟨rfl, rfl, fun d => perBank_set_driven_andNot _ b d m p, fun d => perBank_set_driven_andNot _ b d m (!p),
    fun _ hd => ⟨perBank_get_set_ne _ _ hd, perBank_get_set_ne _ _ hd⟩⟩

/-! ### SETSTATE -/

section
variable {s t : State} {h : BitVec 8} {v : Bool}

/-- M1 of SETSTATE on a pin of a Collection changes nothing but the port and, while it records, the masks at the
pin's bit. -/
theorem setstateBatch_frame {p : Pin} (hexec : setstateBatch h v p s = .next t) :
    ∃ x, State.onlyPort (s.setColl p.coll.toNat x) t ∧
      Collection.ChangedAt p.bank p.mask (s.coll p.coll.toNat) x ∧
      ((s.coll p.coll.toNat).recording = false → x = s.coll p.coll.toNat) := by
  rcases withLock_next hexec with ⟨-, rfl⟩ | ⟨-, hgo⟩
  · exact ⟨_, (setColl_coll_eq s _).symm ▸ onlyPort_hold s _, .refl .., fun _ => rfl⟩
  · split at hgo
    next hrec =>
      cases hgo
      exact ⟨_, onlyPort_respond _ .ok 0, buffer_changedAt .., fun hidle => by simp [hidle] at hrec⟩
    next =>
      cases hgo
      exact ⟨_, (setColl_coll_eq s _).symm ▸ onlyPort_enter s _ 2 _, .refl .., fun _ => rfl⟩

/-- A micro-step of SETSTATE that makes no write refuses the slot, or is the M1 above. -/
theorem execSetstate_frame_of_no_write (hw : physWrite (.setstate h v) s = none)
    (hexec : exec (.setstate h v) s = .next t) :
    ∃ x, State.onlyPort (s.setColl (s.pin h).coll.toNat x) t ∧
      Collection.ChangedAt (s.pin h).bank (s.pin h).mask (s.coll (s.pin h).coll.toNat) x ∧
      (s.mstep = 2 ∨ (s.pin h).ic = false ∨ (s.coll (s.pin h).coll.toNat).recording = false →
        x = s.coll (s.pin h).coll.toNat) := by
  have hm : s.mstep ≠ 2 := fun hm => by simp [physWrite, hm] at hw
  rw [exec, execSetstate_of_ne_two hm] at hexec
  rcases withHandle_next hexec with ⟨-, rfl⟩ | ⟨hvalid, hgo⟩
  · exact ⟨_, (setColl_coll_eq s _).symm ▸ onlyPort_raise s _, .refl .., fun _ => rfl⟩
  · have hic : (s.pin h).ic = true := by simpa [physWrite, hm, hvalid] using hw
    rw [if_pos hic] at hgo
    obtain ⟨x, hport, hx, hidle⟩ := setstateBatch_frame hgo
    exact ⟨x, hport, hx, fun hcase => hidle (by simpa [hm, hic] using hcase)⟩

/-- The bank and the mask of SETSTATE's write are those that M2 carries, or before that the pin's. -/
theorem physWrite_setstate_operands {b d : BankId} {m l : Word} {p : Bool}
    (hw : physWrite (.setstate h v) s = some (d, l, p))
    (hcarried : s.mstep = 2 → b = s.temps.bank ∧ m = s.temps.mask)
    (hpin : s.mstep ≠ 2 → b = (s.pin h).bank ∧ m = (s.pin h).mask) : d = b ∧ l = m := by
  simp only [physWrite] at hw
  split at hw
  next hm =>
    obtain ⟨rfl, rfl⟩ := hcarried hm
    cases hw
    exact ⟨rfl, rfl⟩
  next hm =>
    obtain ⟨rfl, rfl⟩ := hpin hm
    split at hw <;> cases hw
    exact ⟨rfl, rfl⟩

end

/-- Settles O44: a micro-step of SETSTATE is a single-bit write, which leaves the Collection, or makes none, which
leaves the banks. -/
theorem setCommandsChangeOnlyTheirBits : Obligations.SetCommandsChangeOnlyTheirBits := by
  refine ⟨fun s t h v => execSetimm_frame, fun s t h v b m hexec hcarried hpin => ?_⟩
  cases hw : physWrite (.setstate h v) s with
  | some w =>
    obtain ⟨rfl, rfl⟩ := physWrite_setstate_operands hw hcarried hpin
    obtain ⟨d, hport, hd, hbanks⟩ := physWrite_frame hw hexec
    have hx := Collection.ChangedAt.refl (s.pin h).bank (s.pin h).mask (s.coll (s.pin h).coll.toNat)
    refine ⟨d, _, ?_, hd, hbanks, hx.recording, hx.lock, hx.pset, hx.pclr, hx.others, fun _ => rfl⟩
    exact (setColl_coll_eq (s.setBank w.1 { s.bank w.1 with dataOut := d }) (s.pin h).coll.toNat).symm ▸ hport
  | none =>
    obtain ⟨x, hport, hx, hsame⟩ := execSetstate_frame_of_no_write hw hexec
    refine ⟨(s.bank b).dataOut, x, ?_, rfl, fun _ => hport.banks, hx.recording, hx.lock, hx.pset, hx.pclr, hx.others,
      hsame⟩
    exact (setBank_bank_eq s b).symm ▸ hport

/-! ### SETDEB -/

section
variable {s t : State} {h : BitVec 8} {v : Bool}

/-- The first two micro-steps of SETDEB read. -/
theorem execSetdeb_changesOnlyPort (hm : s.mstep ≠ 3) : ChangesOnlyPort s (execSetdeb h v s) := by
  unfold execSetdeb
  split
  · exact readThen_changesOnlyPort rfl fun _ => (onlyPort_enter s _ 3 _).changesOnlyPort
  · contradiction
  · refine withHandle_changesOnlyPort fun p => readThen_changesOnlyPort rfl fun oe => ?_
    split
    · exact (onlyPort_raise s .invalidOperation).changesOnlyPort
    · exact (onlyPort_enter s _ 2 _).changesOnlyPort

/-- The third writes the debounce-enable word, if the access goes through. -/
theorem execSetdeb_third_frame (hm : s.mstep = 3) (hexec : exec (.setdeb h v) s = .next t) :
    ∃ d, State.onlyPort (s.setBank s.temps.bank { s.bank s.temps.bank with debEn := d }) t ∧
      (s.Accessible s.temps.bank → d = driven s.temps.word s.temps.mask v) := by
  by_cases ha : s.Accessible s.temps.bank
  · cases (exec_setdeb_third hm ha v).symm.trans hexec
    exact ⟨_, onlyPort_respond _ .ok 0, fun _ => rfl⟩
  · have hport : s.onlyPort t := by
      simp only [exec, execSetdeb, hm] at hexec
      rcases writeThen_next hexec with ⟨-, rfl⟩ | ⟨-, rfl⟩ | ⟨hpass, -⟩
      · exact onlyPort_hold s _
      · exact onlyPort_raise s _
      · exact absurd (accessible_of_gate hpass) ha
    exact ⟨(s.bank s.temps.bank).debEn, (setBank_bank_eq s _).symm ▸ hport, fun h => absurd h ha⟩

end

/-- Settles O46. -/
theorem setdebChangesOnlyDebounceEnable : Obligations.SetdebChangesOnlyDebounceEnable := by
  intro s t h v b hexec hcarried _
  by_cases hm : s.mstep = 3
  · obtain rfl := hcarried (.inr hm)
    obtain ⟨d, hport, hd⟩ := execSetdeb_third_frame hm hexec
    exact ⟨d, hport, fun hne => absurd hm hne, fun _ => hd⟩
  · exact ⟨(s.bank b).debEn, (setBank_bank_eq s b).symm ▸ execSetdeb_changesOnlyPort hm t hexec, fun _ => rfl,
      fun h => absurd h hm⟩

/-! ### PINNEW -/

/-- With the slot and the bank written over themselves, only the map can differ. -/
theorem setBank_setPin_self (s : State) (m : MapState) (h : BitVec 8) (b : BankId) :
    State.setBank (State.setPin { s with map := m } h (s.pin h)) b (s.bank b) = { s with map := m } :=
  (setBank_bank_eq (State.setPin { s with map := m } h (s.pin h)) b).trans (setPin_pin_eq { s with map := m } h)

/-- Settles O48: the first micro-step may open the map, the second may start the clock, and the third binds the
slot. -/
theorem pinnewChangesOnlySlotMapAndClock : Obligations.PinnewChangesOnlySlotMapAndClock := by
  intro s t h ic coll num hexec
  simp only [exec, execPinnew] at hexec
  split at hexec
  next hm =>
    split at hexec
    · cases hexec
      refine ⟨s.map, s.pin h, true, ?_, fun _ => rfl, fun _ => rfl, fun hne => absurd hm hne, fun _ => rfl⟩
      exact (setPin_pin_eq s h).symm ▸ onlyPort_enter (s.startClock (pinBank (num.setWidth 7))) _ 3 _
    · cases hexec
      exact ⟨s.map, s.pin h, _, (setBank_setPin_self s s.map h _).symm ▸ onlyPort_raise s _, fun _ => rfl,
        fun _ => rfl, fun _ => rfl, id⟩
  next hm =>
    cases hexec
    refine ⟨s.map, Pin.bound (num.setWidth 7) ic coll, _, ?_, fun _ => rfl, fun hne => absurd hm hne, fun _ => rfl,
      id⟩
    exact (setBank_bank_eq (s.setPin h (Pin.bound (num.setWidth 7) ic coll)) _).symm ▸ onlyPort_respond _ .ok 0
  next =>
    obtain ⟨m, hport, hmap⟩ : ∃ m, State.onlyPort { s with map := m } t ∧ (s.map ≠ .unopened → m = s.map) := by
      split at hexec
      · cases hexec
        exact ⟨s.map, onlyPort_raise s _, fun _ => rfl⟩
      · exact requireMap_enter_onlyPort hexec
    exact ⟨m, s.pin h, _, (setBank_setPin_self s m h _).symm ▸ hport, hmap, fun _ => rfl, fun _ => rfl, id⟩

end Sys2Proof.Machine
end

section
/-! PROOFS. The batch commands undisturbed (42_batch.md): BEGIN, GETPEND, SETSTATE on a pin of a Collection, and each
micro-step of COMMIT when its access goes through. -/

namespace Sys2Proof.Machine

/-! ### BEGIN and GETPEND (R86, R89) -/

theorem exec_begin {s : State} {c : BitVec 8} (hlock : (s.coll c.toNat).lock = .free) :
    exec (.beginTx c) s =
      .next ((s.setColl c.toNat { s.coll c.toNat with recording := true }).respond .ok 0) := by
  rw [exec, execBegin, withLock_free hlock]

/-- Settles O25. -/
theorem beginStartsRecording : Obligations.BeginStartsRecording := fun _ _ => exec_begin

theorem pendingData_unknown (v : Bool) : pendingData false v = 0 := by cases v <;> decide

theorem pendingData_known (v : Bool) : pendingData true v = if v = true then 3 else 2 := by cases v <;> decide

/-- Settles O28. -/
theorem getpendAnswersThePendingState : Obligations.GetpendAnswersThePendingState := by
  rintro s h _ _ rfl hvalid rfl
  refine ⟨fun hic => ?free, fun hic hlock => ?pending⟩
  case free => simp only [exec, execGetpend, withHandle_valid hvalid, hic, Bool.false_eq_true, if_false]
  case pending =>
    rw [exec, execGetpend_batch hvalid hic, withLock_free hlock]
    refine ⟨fun hunknown => ?_, fun hknown => ?_⟩
    · rw [Collection.pending, hunknown, pendingData_unknown]
    · rw [Collection.pending, hknown, pendingData_known, Pin.logical]

/-! ### SETSTATE on a pin of a Collection (R87) -/

theorem exec_setstate_recording {s : State} {h : BitVec 8} {p : Pin} {n : Nat} {x : Collection} (hm : s.mstep = 1)
    (hp : s.pin h = p) (hvalid : p.valid = true) (hic : p.ic = true) (hn : p.coll.toNat = n) (hx : s.coll n = x)
    (hlock : x.lock = .free) (hrec : x.recording = true) (v : Bool) :
    exec (.setstate h v) s = .next ((s.setColl n (x.buffer p.bank p.mask (p.physical v))).respond .ok 0) := by
  subst hp hn hx
  rw [exec, execSetstate_first_batch v hm hvalid hic, setstateBatch, withLock_free hlock]
  exact if_pos hrec

/-- Settles O19: the two masks by the pin's physical level, and the idle path of two micro-steps. -/
theorem setstateBuffersOrDrives : Obligations.SetstateBuffersOrDrives := by
  rintro s h v _ _ hs rfl hvalid hic rfl hlock
  refine ⟨fun hrec hphys => ?high, fun hrec hphys => ?low, fun hidle ha => ?idle⟩
  case high => rw [exec_setstate_recording hs.first rfl hvalid hic rfl rfl hlock hrec, Pin.physical, hphys]; rfl
  case low => rw [exec_setstate_recording hs.first rfl hvalid hic rfl rfl hlock hrec, Pin.physical, hphys]; rfl
  case idle =>
    exact ⟨_, exec_setstate_idle_first hs.first hvalid hic hlock hidle v,
      exec_setstate_idle_second hs.exists_port ha v⟩

/-! ### COMMIT micro-step by micro-step (R88) -/

/-- `s` with the latch of one bank driven as the entry `w` of `COMMIT_ORDER` says, by the masks of `x`. -/
def State.commitDrive (s : State) (x : Collection) (w : BankId × Drive) : State :=
  s.drive w.1 (x.commitWord w.1 w.2) (decide (w.2 = .set))

section
variable {s : State} {c : BitVec 8} {k : Nat} {w : BankId × Drive}

theorem exec_commit_first (hm : s.mstep = 1) (hlock : (s.coll c.toNat).lock = .free) (ho : s.map = .opened) :
    exec (.commit c) s =
      .next ((s.setLock c.toNat (.held s.turn.port)).enter (.commit c) 2 Temps.none) :=
  (exec_of_needsMap (i := .commit c) ⟨by omega, hlock⟩).trans (requireMap_opened ho _)

theorem exec_commit_of_entry (hm : s.mstep = k + 2) (hw : s.cfg.commitOrder[k]? = some w) :
    exec (.commit c) s = commitWrite c w.1 w.2 s := by
  simp only [exec, execCommit, hm, hw]

/-- The write of one side is a drive of the latch to that side's level. -/
theorem exec_commit_write (hm : s.mstep = k + 2) (hw : s.cfg.commitOrder[k]? = some w) (ha : s.Accessible w.1) :
    exec (.commit c) s =
      .next ((s.commitDrive (s.coll c.toNat) w).enter (.commit c) (k + 3) Temps.none) := by
  have hwrite : (s.bank w.1).write (driveRegister w.2) ((s.coll c.toNat).commitWord w.1 w.2) =
      some { s.bank w.1 with
        dataOut := driven (s.bank w.1).dataOut ((s.coll c.toNat).commitWord w.1 w.2) (decide (w.2 = .set)) } := by
    cases w.2 <;> rfl
  rw [exec_commit_of_entry hm hw, commitWrite, writeThen_accessible ha hwrite, setBank_mstep, hm]
  rfl

theorem exec_commit_last (hm : s.mstep = k + 2) (hk : s.cfg.commitOrder.length ≤ k) :
    exec (.commit c) s = .next ((s.setColl c.toNat Collection.idle).respond .ok 0) := by
  have hend : s.cfg.commitOrder[k]? = none := List.getElem?_eq_none hk
  simp only [exec, execCommit, hm, hend, commitRelease]

end

/-- Settles O26. -/
theorem commitMicroSteps : Obligations.CommitMicroSteps := fun _ _ _ =>
  ⟨exec_commit_first, fun _ _ => exec_commit_write, fun _ _ => exec_commit_write,
    fun hm => exec_commit_last hm le_rfl⟩

end Sys2Proof.Machine
end

section
/-! PROOFS. A whole COMMIT (R88, R91, R96): the writes of any list of entries of `COMMIT_ORDER`, by induction on the
list, and what they leave of the latches once every pair of a bank and a side is in it. With it, what a transaction
leaves for GETSTATE to read (R85, R90). -/

namespace Sys2Proof.Machine

/-! ### The writes of a list of entries -/

/-- `s` after the writes of the entries of `l`, in order, by the masks of `x`. -/
def State.flush (s : State) (x : Collection) (l : List (BankId × Drive)) : State :=
  l.foldl (fun u w => u.commitDrive x w) s

section
variable {s : State} {x : Collection} {c : BitVec 8}

theorem flush_cons (s : State) (x : Collection) (w : BankId × Drive) (l : List (BankId × Drive)) :
    s.flush x (w :: l) = (s.commitDrive x w).flush x l := rfl

/-- The writes change the banks and nothing else. -/
theorem flush_eq (s : State) (x : Collection) (l : List (BankId × Drive)) :
    s.flush x l = { s with banks := (s.flush x l).banks } := by
  induction l generalizing s with
  | nil => rfl
  | cons w l ih => exact ih (s.commitDrive x w)

/-- The lock plays no part in the writes. -/
theorem flush_setLock (s : State) (x : Collection) (n : Nat) (y : Lock) (l : List (BankId × Drive)) :
    (s.setLock n y).flush x l = (s.flush x l).setLock n y := by
  induction l generalizing s with
  | nil => rfl
  | cons w l ih => exact ih (s.commitDrive x w)

/-- A COMMIT that stands at entry `k` makes the writes of the entries `l` that are left, and ends. -/
theorem runInstr_commit_rest {l : List (BankId × Drive)} {k : Nat} (hlt : s.turn.port < s.ports.length)
    (hl : s.cfg.commitOrder.drop k = l) (ha : ∀ b, s.Accessible b) :
    runInstr (.commit c) (l.length + 1) (s.enter (.commit c) (k + 2) Temps.none) =
      .next (((s.flush (s.coll c.toNat) l).setColl c.toNat Collection.idle).respond .ok 0) := by
  have hm := enter_mstep s (.commit c) (k + 2) Temps.none hlt
  induction l generalizing s k with
  | nil =>
    have hlast := exec_commit_last (c := c) hm (List.drop_eq_nil_iff.1 hl)
    simp only [List.length_nil, runInstr, hlast]
    rw [enter_setColl, enter_respond _ _ _ _ _ _ (by exact hlt)]
    rfl
  | cons w l ih =>
    have hw : s.cfg.commitOrder[k]? = some w := by
      rw [← List.head?_drop, hl, List.head?_cons]
    have hrest : s.cfg.commitOrder.drop (k + 1) = l := by
      rw [← List.tail_drop, hl, List.tail_cons]
    have hwrite := exec_commit_write (c := c) hm hw ((ha w.1).enter ..)
    have hentered : ((s.enter (.commit c) (k + 2) Temps.none).commitDrive (s.coll c.toNat) w).enter (.commit c)
        (k + 3) Temps.none = (s.commitDrive (s.coll c.toNat) w).enter (.commit c) (k + 3) Temps.none :=
      enter_enter (s.commitDrive (s.coll c.toNat) w) _ _ _ _ _ _ hlt
    rw [List.length_cons, runInstr, hwrite, enter_coll, hentered]
    exact ih (s := s.commitDrive (s.coll c.toNat) w) hlt hrest (fun b => (ha b).drive ..)
      (enter_mstep (s.commitDrive (s.coll c.toNat) w) _ _ _ hlt)

/-! ### What the writes leave of a latch -/

theorem commitDrive_bank (s : State) (x : Collection) (b d : BankId) (e : Drive) :
    (s.commitDrive x (d, e)).bank b = if b = d then
      { s.bank b with dataOut := driven (s.bank b).dataOut (x.commitWord b e) (decide (e = .set)) }
      else s.bank b := by
  rw [State.commitDrive, drive_bank]
  split
  next h => rw [h]
  next => rfl

/-- The writes change no register of a bank but the latch. -/
theorem flush_bank (s : State) (x : Collection) (l : List (BankId × Drive)) (b : BankId) :
    (s.flush x l).bank b = { s.bank b with dataOut := ((s.flush x l).bank b).dataOut } := by
  induction l generalizing s with
  | nil => rfl
  | cons w l ih =>
    obtain ⟨d, e⟩ := w
    have hrest := ih (s.commitDrive x (d, e))
    rw [commitDrive_bank] at hrest
    rw [flush_cons, hrest]
    split <;> rfl

/-- No bit is set in both masks (R18). -/
theorem Collection.Consistent.pclr_getLsbD (hx : x.Consistent) {b : BankId} {j : Nat}
    (hset : (x.pset.get b).getLsbD j = true) : (x.pclr.get b).getLsbD j = false := by
  have hboth : (x.pset.get b &&& x.pclr.get b).getLsbD j = false := by simp [(hx b).1]
  simpa [hset] using hboth

/-- What the writes of `l` leave of a latch bit depends on which writes are in `l`, but not on their order, since no
bit is set in both masks. -/
theorem flush_latch (hx : x.Consistent) (s : State) (l : List (BankId × Drive)) (b : BankId) (j : Nat) :
    ((s.flush x l).bank b).dataOut.getLsbD j =
      if (b, .set) ∈ l ∧ (x.pset.get b).getLsbD j = true then true
      else if (b, .clear) ∈ l ∧ (x.pclr.get b).getLsbD j = true then false
      else (s.bank b).dataOut.getLsbD j := by
  induction l generalizing s with
  | nil => simp [State.flush]
  | cons w l ih =>
    obtain ⟨d, e⟩ := w
    rw [flush_cons, ih, commitDrive_bank]
    by_cases hd : b = d
    · subst hd
      rw [if_pos rfl, driven_getLsbD]
      cases hset : (x.pset.get b).getLsbD j with
      | true =>
        have hclear := hx.pclr_getLsbD hset
        cases e <;> simp [Collection.commitWord, hset, hclear]
      | false => cases e <;> simp +contextual [Collection.commitWord, hset]
    · simp [hd]

end

/-- All pairs of a bank and a side of a commit. -/
def commitPairs : List (BankId × Drive) := allBanks.flatMap fun b => [(b, .set), (b, .clear)]

theorem mem_commitPairs (w : BankId × Drive) : w ∈ commitPairs := by
  obtain ⟨b, e⟩ := w
  cases e <;> exact List.mem_flatMap.2 ⟨b, mem_allBanks b, by simp⟩

/-- An order of the eight writes has every pair of a bank and a side. -/
theorem mem_commitOrder {cfg : Config} (h : cfg.commitOrderLegal) (w : BankId × Drive) : w ∈ cfg.commitOrder := by
  obtain ⟨hlen, hnodup⟩ := h
  have hsub := List.subperm_of_subset hnodup (l₂ := commitPairs) fun w _ => mem_commitPairs w
  have hperm := hsub.perm_of_length_le (by rw [hlen]; decide)
  exact hperm.mem_iff.2 (mem_commitPairs w)

/-! ### The whole COMMIT -/

theorem setLock_setColl (s : State) (n : Nat) (y : Lock) (x : Collection) :
    (s.setLock n y).setColl n x = s.setColl n x := by
  simp only [State.setLock, State.setColl, List.set_set]

theorem setLock_commitWord (s : State) (n : Nat) (y : Lock) (b : BankId) (e : Drive) :
    ((s.setLock n y).coll n).commitWord b e = (s.coll n).commitWord b e := by
  rw [setLock_coll]
  split <;> cases e <;> rfl

/-- The writes go by the words that the masks give. -/
theorem flush_congr {x y : Collection} (h : ∀ b e, x.commitWord b e = y.commitWord b e) (s : State)
    (l : List (BankId × Drive)) : s.flush x l = s.flush y l := by
  simp only [State.flush, State.commitDrive, h]

/-- A COMMIT of the free Collection `c`, with nothing in between. -/
theorem runInstr_commit {s : State} {c : BitVec 8} (hs : s.Ready) (horder : s.cfg.commitOrderLegal)
    (hlock : (s.coll c.toNat).lock = .free) (ha : ∀ b, s.Accessible b) :
    runInstr (.commit c) 10 s = .next
      (((s.flush (s.coll c.toNat) s.cfg.commitOrder).setColl c.toNat Collection.idle).respond .ok 0) := by
  have hrest := runInstr_commit_rest (s := s.setLock c.toNat (.held s.turn.port)) (c := c) (l := s.cfg.commitOrder)
    (k := 0) hs.exists_port rfl fun b => ⟨(ha b).opened, (ha b).clocked, (ha b).noBusError⟩
  rw [flush_congr (setLock_commitWord _ _ _), flush_setLock, setLock_setColl, horder.1] at hrest
  rw [runInstr, exec_commit_first hs.first hlock (ha 0).opened]
  exact hrest

/-- With every pair in the order the latch has the bits of one mask set and those of the other cleared. -/
theorem flush_dataOut {x : Collection} (hx : x.Consistent) (s : State) {l : List (BankId × Drive)}
    (hl : ∀ w, w ∈ l) (b : BankId) :
    ((s.flush x l).bank b).dataOut = ((s.bank b).dataOut ||| x.pset.get b) &&& ~~~(x.pclr.get b) := by
  apply BitVec.eq_of_getLsbD_eq
  intro j hj
  simp only [flush_latch hx, hl, true_and, BitVec.getLsbD_and, BitVec.getLsbD_or, BitVec.getLsbD_not, hj,
    decide_true, Bool.true_and]
  cases hset : (x.pset.get b).getLsbD j with
  | true => simp [hx.pclr_getLsbD hset]
  | false => cases (x.pclr.get b).getLsbD j <;> simp

/-- Settles O27. -/
theorem commitFlushesTheMasks : Obligations.CommitFlushesTheMasks := by
  intro s c hs horder hmasks hlock ha
  refine ⟨(s.flush (s.coll c.toNat) s.cfg.commitOrder).banks, ?run, fun b => ?latch⟩
  case run =>
    rw [runInstr_commit hs horder hlock ha, ← flush_eq]
    rfl
  case latch =>
    rw [← flush_dataOut (hmasks c.toNat) s (mem_commitOrder horder) b]
    exact flush_bank s _ _ b

/-! ### A transaction (R85, R90) -/

/-- In the masks of `x` the level `p` is pending for pin `n` (R87, R89). -/
def Collection.Pends (x : Collection) (n : BitVec 7) (p : Bool) : Prop :=
  (x.pset.get (pinBank n)).getLsbD (pinBit n) = p ∧ (x.pclr.get (pinBank n)).getLsbD (pinBit n) = !p

theorem buffer_pends (x : Collection) (n : BitVec 7) (p : Bool) : (x.buffer (pinBank n) (pinMask n) p).Pends n p := by
  simp only [Collection.Pends, buffer_eq, perBank_get_set_self, driven_pinMask_getLsbD, and_self]

/-- Driving the bit of pin `k` in its bank's word leaves the bit of another pin. -/
theorem perBank_set_driven_ne {n k : BitVec 7} (h : n ≠ k) (q : PerBank Word) (p : Bool) :
    ((q.set (pinBank k) (driven (q.get (pinBank k)) (pinMask k) p)).get (pinBank n)).getLsbD (pinBit n) =
      (q.get (pinBank n)).getLsbD (pinBit n) := by
  rw [perBank_get_set]
  split
  next hbank =>
    have hbit : pinBit n ≠ pinBit k := fun hbit => h (pinAddress_injective hbank hbit)
    simp [driven_getLsbD, pinMask_getLsbD, hbit, hbank]
  next => rfl

/-- Buffering another pin leaves what is pending (R91 (e)). -/
theorem Collection.Pends.buffer_ne {x : Collection} {n k : BitVec 7} {p : Bool} (hx : x.Pends n p) (h : n ≠ k)
    (q : Bool) : (x.buffer (pinBank k) (pinMask k) q).Pends n p := by
  simp only [Collection.Pends, buffer_eq, perBank_set_driven_ne h]
  exact hx

/-- Setting the bits of one mask and clearing those of the other gives a pin the level that is pending for it. -/
theorem Collection.Pends.latch {x : Collection} {n : BitVec 7} {p : Bool} (hx : x.Pends n p) (w : Word) :
    ((w ||| x.pset.get (pinBank n)) &&& ~~~(x.pclr.get (pinBank n))).getLsbD (pinBit n) = p := by
  obtain ⟨hset, hclear⟩ := hx
  rw [BitVec.getLsbD_and, BitVec.getLsbD_or, BitVec.getLsbD_not, hset, hclear]
  cases p <;> simp [pinBit_lt]

theorem buffer_recording (x : Collection) (b : BankId) (m : Word) (p : Bool) :
    (x.buffer b m p).recording = x.recording := by
  cases p <;> rfl

/-- `t` is `s` but for Collection `n`, which is `x` in it and records under a free lock, and the port of the turn,
which is ready for its next command: what BEGIN and the SETSTATEs after it make of `s`. -/
structure State.RecordedAs (s : State) (n : Nat) (x : Collection) (t : State) : Prop where
  ready : t.Ready
  recording : x.recording = true
  free : x.lock = .free
  consistent : (s.coll n).Consistent → x.Consistent
  cfg : t.cfg = s.cfg
  map : t.map = s.map
  pins : t.pins = s.pins
  banks : t.banks = s.banks
  turn : t.turn = s.turn
  colls : t.colls = s.colls.set n x

theorem recordedAs_begin {s : State} {n : Nat} (hs : s.Ready) (hlock : (s.coll n).lock = .free) :
    s.RecordedAs n { s.coll n with recording := true }
      ((s.setColl n { s.coll n with recording := true }).respond .ok 0) where
  ready := respond_ready (by exact hs.exists_port) .ok 0
  recording := rfl
  free := hlock
  consistent := Collection.Consistent.startRecording
  cfg := rfl
  map := rfl
  pins := rfl
  banks := rfl
  turn := rfl
  colls := rfl

section
variable {s t : State} {n : Nat} {x : Collection}

theorem State.RecordedAs.pin (r : s.RecordedAs n x t) (h : BitVec 8) : t.pin h = s.pin h := by
  simp only [State.pin, r.pins]

theorem State.RecordedAs.bank (r : s.RecordedAs n x t) (b : BankId) : t.bank b = s.bank b := by
  simp only [State.bank, r.banks]

theorem State.RecordedAs.coll (r : s.RecordedAs n x t) (hlt : n < s.colls.length) : t.coll n = x := by
  rw [← setColl_coll_self s x hlt]
  simp only [State.coll, r.colls, setColl_colls]

theorem State.RecordedAs.accessible (r : s.RecordedAs n x t) {b : BankId} (ha : s.Accessible b) : t.Accessible b :=
  ⟨r.map.trans ha.opened, (congrArg Bank.clkEn (r.bank b)).trans ha.clocked,
    (congrArg PortTurn.busError r.turn).trans ha.noBusError⟩

theorem State.RecordedAs.isOut (r : s.RecordedAs n x t) {p : Pin} (h : s.isOut p) : t.isOut p := by
  rw [State.isOut, r.bank, r.cfg]
  exact h

theorem State.RecordedAs.masksConsistent (r : s.RecordedAs n x t) (w : MasksConsistent s) : MasksConsistent t :=
  (w.setColl r.consistent).of_colls r.colls

/-- A SETSTATE on a pin of the recording Collection changes only the masks. -/
theorem State.RecordedAs.setstate (r : s.RecordedAs n x t) (hlt : n < s.colls.length) {h : BitVec 8}
    (hvalid : (s.pin h).valid = true) (hic : (s.pin h).ic = true) (hcoll : (s.pin h).coll.toNat = n) (v : Bool) :
    ∃ u, exec (.setstate h v) t = .next u ∧
      s.RecordedAs n (x.buffer (s.pin h).bank (s.pin h).mask ((s.pin h).physical v)) u := by
  refine ⟨_, exec_setstate_recording r.ready.first (r.pin h) hvalid hic hcoll (r.coll hlt) r.free r.recording v, {
    ready := respond_ready (by exact r.ready.exists_port) .ok 0
    recording := (buffer_recording ..).trans r.recording
    free := (buffer_lock ..).trans r.free
    consistent := fun hc => (r.consistent hc).buffer r.recording _ _ _
    cfg := r.cfg
    map := r.map
    pins := r.pins
    banks := r.banks
    turn := r.turn
    colls := by simp [r.colls] }⟩

end

/-- After a COMMIT its port is ready again, every bank as accessible as before, and each OUT pin has the level that
was pending for it. -/
theorem runInstr_commit_pending {s : State} {c : BitVec 8} (hs : s.Ready) (horder : s.cfg.commitOrderLegal)
    (hmasks : MasksConsistent s) (hlock : (s.coll c.toNat).lock = .free) (ha : ∀ b, s.Accessible b) :
    ∃ t, runInstr (.commit c) 10 s = .next t ∧ t.Ready ∧ (∀ b, t.Accessible b) ∧
      (∀ h, t.pin h = s.pin h) ∧
      ∀ (p : Pin) (l : Bool), s.isOut p → (s.coll c.toNat).Pends p.num l → t.levelOf p = l := by
  obtain ⟨banks, hrun, hbanks⟩ := commitFlushesTheMasks s c hs horder hmasks hlock ha
  refine ⟨_, hrun, respond_ready (by exact hs.exists_port) _ _,
    fun b => ⟨(ha b).opened, ?clocked, (ha b).noBusError⟩, fun _ => rfl, fun p l hout hpends => ?level⟩
  case clocked => exact (congrArg Bank.clkEn (hbanks b)).trans (ha b).clocked
  case level =>
    have hbank := hbanks p.bank
    refine (levelOf_of_isOut ?_).trans ?_
    · exact (congrArg (fun q : Bank => q.oe.getLsbD p.bit) hbank).trans hout
    · exact (congrArg (fun q : Bank => q.dataOut.getLsbD p.bit) hbank).trans (hpends.latch _)

/-- GETSTATE of a pin at the physical level of `v` answers `v`. -/
theorem runInstr_getstate_physical {s : State} {h : BitVec 8} {v : Bool} (hs : s.Ready)
    (hvalid : (s.pin h).valid = true) (ha : s.Accessible (s.pin h).bank)
    (hlevel : s.levelOf (s.pin h) = (s.pin h).physical v) :
    runInstr (.getstate h) 2 s = .next (s.respond .ok (if v then 1 else 0)) := by
  rw [runInstr_getstate hs hvalid ha, hlevel, logical_physical, boolData_eq]

/-- Settles O29: BEGIN and the two SETSTATEs write only the Collection, whose masks then have the level of each pin
pending; the COMMIT drives the pins to these levels. -/
theorem transactionBuffersUntilCommit : Obligations.TransactionBuffersUntilCommit := by
  intro s c h k v w hs horder hmasks hlt hlock ha hvalid hic hcoll hvalid' hic' hcoll' hne hout hout'
  have r1 := recordedAs_begin hs hlock
  obtain ⟨s2, hset, r2⟩ := r1.setstate hlt hvalid hic hcoll v
  obtain ⟨s3, hset', r3⟩ := r2.setstate hlt hvalid' hic' hcoll' w
  have hcoll3 := r3.coll hlt
  obtain ⟨s4, hcommit, hready, haccess, hpin, hlevel⟩ := runInstr_commit_pending r3.ready
    (by rw [r3.cfg]; exact horder) (r3.masksConsistent hmasks) (by rw [hcoll3]; exact r3.free)
    fun b => r3.accessible (ha b)
  have hpin4 : ∀ g, s4.pin g = s.pin g := fun g => (hpin g).trans (r3.pin g)
  have hlevelh := hlevel (s.pin h) _ (r3.isOut hout) (hcoll3 ▸ (buffer_pends _ _ _).buffer_ne hne _)
  have hlevelk := hlevel (s.pin k) _ (r3.isOut hout') (hcoll3 ▸ buffer_pends _ _ _)
  have hget := runInstr_getstate_physical (h := h) (v := v) hready (by rwa [hpin4]) (haccess _) (by rwa [hpin4])
  have hready5 := respond_ready hready.exists_port .ok (if v then 1 else 0)
  have hget' := runInstr_getstate_physical (h := k) (v := w) hready5 (by rwa [respond_pin, hpin4])
    ((haccess _).respond ..) (by rw [respond_pin, hpin4]; exact hlevelk)
  refine ⟨_, s2, s3, s4, _, _, exec_begin hlock, hset, hset', r3.banks, hcommit, hget, ?_, hget', ?_⟩
  · rw [respond_port _ _ _ hready.exists_port]
  · rw [respond_port _ _ _ hready5.exists_port]

end Sys2Proof.Machine
end

section
/-! PROOFS. The frames of BEGIN and COMMIT (R86, R88), and that a Collection whose lock a COMMIT holds is left as it is
by every micro-step of another port (R88, R91 (d)). -/

namespace Sys2Proof.Machine

/-! ### BEGIN and COMMIT -/

section
variable {s t : State} {c : BitVec 8}

theorem execBegin_frame (h : execBegin c s = .next t) :
    ∃ r, State.onlyPort (s.setColl c.toNat { s.coll c.toNat with recording := r }) t := by
  rcases withLock_next h with ⟨-, rfl⟩ | ⟨-, hgo⟩
  · exact ⟨(s.coll c.toNat).recording, (setColl_coll_eq s _).symm ▸ onlyPort_hold s _⟩
  · cases hgo
    exact ⟨true, onlyPort_respond _ .ok 0⟩

/-- M1 changes nothing but the port, the map on its first use, and the lock. -/
theorem commitTake_frame (h : commitTake c s = .next t) :
    ∃ m l, State.onlyPort (State.setColl { s with map := m } c.toNat { s.coll c.toNat with lock := l }) t ∧
      (s.map ≠ .unopened → m = s.map) := by
  rcases withLock_next h with ⟨-, rfl⟩ | ⟨-, hgo⟩
  · exact ⟨s.map, (s.coll c.toNat).lock, (setColl_coll_eq s c.toNat).symm ▸ onlyPort_hold s _, fun _ => rfl⟩
  · obtain ⟨m, hopen, hm⟩ := lazyOpen_map s
    rcases requireMap_next hgo with ⟨-, rfl⟩ | ⟨-, hgo⟩
    · rw [hopen]
      refine ⟨m, (s.coll c.toNat).lock, ?_, hm⟩
      exact (setColl_coll_eq { s with map := m } c.toNat).symm ▸ onlyPort_raise _ _
    · cases hgo
      rw [hopen]
      exact ⟨m, _, onlyPort_enter (State.setLock { s with map := m } c.toNat _) _ _ _, hm⟩

/-- A write that does not go through changes nothing but the port and the lock. -/
theorem commitWrite_frame_of_not_accessible {b : BankId} {d : Drive} (ha : ¬s.Accessible b)
    (h : commitWrite c b d s = .next t) :
    ∃ l, State.onlyPort (s.setColl c.toNat { s.coll c.toNat with lock := l }) t := by
  rcases writeThen_next h with ⟨-, rfl⟩ | ⟨-, rfl⟩ | ⟨hpass, -⟩
  · exact ⟨(s.coll c.toNat).lock, (setColl_coll_eq s c.toNat).symm ▸ onlyPort_hold s _⟩
  · exact ⟨.free, onlyPort_raise _ _⟩
  · exact absurd (accessible_of_gate hpass) ha

/-- A write micro-step changes nothing but the port, the lock, and the latch that its entry names. -/
theorem exec_commit_write_frame {k : Nat} {w : BankId × Drive} (hm : s.mstep = k + 2)
    (hw : s.cfg.commitOrder[k]? = some w) (h : exec (.commit c) s = .next t) :
    ∃ l banks,
      State.onlyPort (State.setColl { s with banks := banks } c.toNat { s.coll c.toNat with lock := l }) t ∧
      (¬s.Accessible w.1 → banks = s.banks) ∧
      (s.Accessible w.1 → banks = (s.commitDrive (s.coll c.toNat) w).banks) := by
  by_cases ha : s.Accessible w.1
  · cases (exec_commit_write hm hw ha).symm.trans h
    refine ⟨(s.coll c.toNat).lock, (s.commitDrive (s.coll c.toNat) w).banks, ?_, fun hno => absurd ha hno,
      fun _ => rfl⟩
    exact (setColl_coll_eq (s.commitDrive (s.coll c.toNat) w) c.toNat).symm ▸ onlyPort_enter _ _ _ _
  · rw [exec_commit_of_entry hm hw] at h
    obtain ⟨l, hport⟩ := commitWrite_frame_of_not_accessible ha h
    exact ⟨l, s.banks, hport, fun _ => rfl, fun hb => absurd hb ha⟩

end

/-- Settles O47: M1, a write micro-step, and the last one. -/
theorem batchCommandsChangeOnlyTheirCollection : Obligations.BatchCommandsChangeOnlyTheirCollection := by
  refine ⟨fun s t c => execBegin_frame, fun s t c h => ?_⟩
  by_cases hm : s.mstep < 2
  · rw [exec, execCommit_of_lt_two c hm] at h
    obtain ⟨m, l, hport, hmap⟩ := commitTake_frame h
    exact ⟨m, _, s.banks, hport, hmap, fun _ => rfl, fun k b d hk => absurd hk (by omega),
      fun _ => ⟨rfl, rfl, rfl⟩⟩
  · obtain ⟨k, hk⟩ : ∃ k, s.mstep = k + 2 := ⟨s.mstep - 2, by omega⟩
    have hentry : ∀ k', s.mstep = k' + 2 → k' = k := fun k' hk' => by omega
    cases hw : s.cfg.commitOrder[k]? with
    | some w =>
      obtain ⟨l, banks, hport, hkept, hdriven⟩ := exec_commit_write_frame hk hw h
      have haccess : nextAccess (.commit c) s = some w.1 := by simp [nextAccess, hk, hw]
      refine ⟨s.map, _, banks, hport, fun _ => rfl, fun hno => absurd hno (by simp [haccess]),
        fun k' b d hk' hw' => ?_, fun _ => ⟨rfl, rfl, rfl⟩⟩
      rw [hentry k' hk', hw] at hw'
      cases hw'
      exact ⟨hkept, hdriven⟩
    | none =>
      have hlen := List.getElem?_eq_none_iff.1 hw
      cases (exec_commit_last hk hlen).symm.trans h
      refine ⟨s.map, _, s.banks, onlyPort_respond (s.setColl c.toNat Collection.idle) .ok 0, fun _ => rfl,
        fun _ => rfl, fun k' b d hk' hw' => ?_, fun hlt => absurd hlt (by omega)⟩
      rw [hentry k' hk', hw] at hw'
      cases hw'

/-! ### What another port's micro-step leaves of a locked Collection -/

theorem State.onlyPort.coll {s t : State} (h : s.onlyPort t) (n : Nat) : t.coll n = s.coll n := by
  obtain ⟨_, -, rfl⟩ := h
  rfl

section
variable {s t : State} {n p : Nat}

theorem ne_of_held_of_free {m : Nat} (hheld : (s.coll n).lock = .held p) (hfree : (s.coll m).lock = .free) :
    n ≠ m := by
  rintro rfl
  cases hheld.symm.trans hfree

theorem writePhys_coll {i : Instr} {b : BankId} {m : Word} {l : Bool} (h : s.writePhys i b m l = .next t) (n : Nat) :
    t.coll n = s.coll n := by
  rcases writePhys_next h with ⟨-, rfl⟩ | ⟨-, rfl⟩ | ⟨-, rfl⟩ <;> rfl

/-- SETACTLOW writes a slot, a latch or nothing, and no Collection (R94, R99). -/
theorem execSetactlow_coll {h : BitVec 8} {v : Bool} (hexec : execSetactlow h v s = .next t) (n : Nat) :
    t.coll n = s.coll n := by
  unfold execSetactlow at hexec
  split at hexec
  · exact (readThen_changesOnlyPort (afterRead_levelRegister s _)
      (fun _ => (onlyPort_enter s _ 3 _).changesOnlyPort) t hexec).coll n
  · split at hexec <;> cases hexec <;> rfl
  · exact writePhys_coll hexec n
  · exact (readDirection_changesOnlyPort s (.setactlow h v) h t hexec).coll n

/-- M1 of SETSTATE on a pin of a Collection waits while the lock is held (R48). -/
theorem setstateBatch_coll_of_held (hheld : (s.coll n).lock = .held p) {h : BitVec 8} {v : Bool} {q : Pin}
    (hexec : setstateBatch h v q s = .next t) : t.coll n = s.coll n := by
  rcases withLock_next hexec with ⟨-, rfl⟩ | ⟨hfree, hgo⟩
  · rfl
  · split at hgo
    · cases hgo
      exact setColl_coll_ne s _ (ne_of_held_of_free hheld hfree)
    · cases hgo
      rfl

theorem execSetstate_coll_of_held (hheld : (s.coll n).lock = .held p) {h : BitVec 8} {v : Bool}
    (hexec : execSetstate h v s = .next t) : t.coll n = s.coll n := by
  unfold execSetstate at hexec
  split at hexec
  · exact writePhys_coll hexec n
  · rcases withHandle_next hexec with ⟨-, rfl⟩ | ⟨-, hgo⟩
    · rfl
    · split at hgo
      · exact setstateBatch_coll_of_held hheld hgo
      · exact writePhys_coll hgo n

theorem execBegin_coll_of_held (hheld : (s.coll n).lock = .held p) {c : BitVec 8}
    (hexec : execBegin c s = .next t) : t.coll n = s.coll n := by
  rcases withLock_next hexec with ⟨-, rfl⟩ | ⟨hfree, hgo⟩
  · rfl
  · cases hgo
    exact setColl_coll_ne s _ (ne_of_held_of_free hheld hfree)

/-- COMMIT of the same Collection waits at M1; past it the port is the one that holds the lock. -/
theorem exec_commit_coll_of_held (hheld : (s.coll n).lock = .held p) {c : BitVec 8}
    (hout : commitAt (.commit c) s.mstep ≠ some n) (hexec : exec (.commit c) s = .next t) : t.coll n = s.coll n := by
  by_cases hn : n = c.toNat
  · subst hn
    have hm : s.mstep < 2 := by
      by_contra hm
      exact hout (commitAt_commit_later (by omega))
    rw [exec, execCommit_of_lt_two c hm, commitTake, withLock_held hheld] at hexec
    cases hexec
    rfl
  · obtain ⟨m, x, banks, hport, -⟩ := batchCommandsChangeOnlyTheirCollection.2 s t c hexec
    rw [hport.coll]
    exact setColl_coll_ne _ x hn

/-- A micro-step of a port that is not inside the COMMIT of a locked Collection leaves the Collection as it is. -/
theorem exec_coll_of_held {i : Instr} (hheld : (s.coll n).lock = .held p) (hout : commitAt i s.mstep ≠ some n)
    (hexec : exec i s = .next t) : t.coll n = s.coll n := by
  cases i with
  | mapopen =>
    obtain ⟨m, hport⟩ := mapCommandsChangeOnlyTheMap.1 s t hexec
    exact hport.coll n
  | mapclose =>
    obtain ⟨m, hport⟩ := mapCommandsChangeOnlyTheMap.2 s t hexec
    exact hport.coll n
  | regrd b r =>
    obtain ⟨m, d, hport, -⟩ := execRegrd_frame hexec
    exact hport.coll n
  | regwr b r w =>
    obtain ⟨⟨m, x, hport, -⟩, -⟩ := regwrChangesOnlyItsRegister s t b r w hexec
    exact hport.coll n
  | pinnew h ic coll num =>
    obtain ⟨m, q, k, hport, -⟩ := pinnewChangesOnlySlotMapAndClock s t h ic coll num hexec
    exact hport.coll n
  | setstate h v => exact execSetstate_coll_of_held hheld hexec
  | setimm h v =>
    obtain ⟨d, hport, -⟩ := execSetimm_frame hexec
    exact hport.coll n
  | getstate h => exact (execGetstate_changesOnlyPort s h t hexec).coll n
  | chkdir h => exact (execChkdir_changesOnlyPort s h t hexec).coll n
  | setactlow h v => exact execSetactlow_coll hexec n
  | setdeb h v =>
    by_cases hm : s.mstep = 3
    · obtain ⟨d, hport, -⟩ := execSetdeb_third_frame hm hexec
      exact hport.coll n
    · exact (execSetdeb_changesOnlyPort hm t hexec).coll n
  | beginTx c => exact execBegin_coll_of_held hheld hexec
  | commit c => exact exec_commit_coll_of_held hheld hout hexec
  | getpend h => exact (execGetpend_changesOnlyPort s h t hexec).coll n

/-- The turn of a port that does not hold the lock leaves the Collection as it is. -/
theorem runPort_coll_of_held (w : LockMatchesCommit s) (hlt : n < s.colls.length)
    (hheld : (s.coll n).lock = .held p) (hother : s.turn.port ≠ p) (h : runPort s = .next t) :
    t.coll n = s.coll n := by
  rcases runPort_next h with rfl | ⟨_, _, _, -, -, -, -, rfl⟩ | ⟨q, i, hq, hexec, hi⟩
  · rfl
  · rfl
  · refine exec_coll_of_held hheld (fun hinside => hother ?_) hexec
    rw [← commitOf_running hq (hi.imp_right fun hpresents => hpresents.1)] at hinside
    have hholds := ((lockMatchesCommit_iff s).1 w n s.turn.port hlt).2 hinside
    cases hholds.symm.trans hheld
    rfl

end

/-- Settles O57. -/
theorem lockedCollectionIsUntouchedByOthers : Obligations.LockedCollectionIsUntouchedByOthers := by
  intro s t n p w hlt hheld hnext h
  rcases step_next h with ⟨m, ts, -, rfl⟩ | ⟨q, hturn, hrun⟩
  · obtain ⟨-, -, -, hcolls, -⟩ := hostMove_block { s with turns := ts } m
    simp only [State.coll, hcolls]
  · have hother : q.port ≠ p := fun heq => hnext (by simp [State.nextPort, hturn, heq])
    exact runPort_coll_of_held (s := s.taking q) w hlt hheld hother hrun

end Sys2Proof.Machine
end

section
/-! PROOFS. The Pin Capability Interface commands (43_capability.md): what SETIMM shows on the pads, the four
micro-steps of SETACTLOW undisturbed, what GETSTATE answers after it, and its frame. -/

namespace Sys2Proof.Machine

/-! ### Pads, and what a write to the latch leaves of directions and levels (R52, R77) -/

section
variable (s : State)

/-- A drive writes the latch and no other register. -/
theorem drive_bank_latch (b d : BankId) (m : Word) (p : Bool) :
    (s.drive b m p).bank d = { s.bank d with dataOut := ((s.drive b m p).bank d).dataOut } := by
  rw [drive_bank]
  split
  next hd => rw [hd]
  next => rfl

theorem drive_oe (b d : BankId) (m : Word) (p : Bool) : ((s.drive b m p).bank d).oe = (s.bank d).oe := by
  rw [drive_bank_latch]

theorem drive_padIn (b d : BankId) (m : Word) (p : Bool) : ((s.drive b m p).bank d).padIn = (s.bank d).padIn := by
  rw [drive_bank_latch]

theorem isOut_drive (b : BankId) (m : Word) (v : Bool) (p : Pin) : (s.drive b m v).isOut p ↔ s.isOut p := by
  rw [State.isOut, drive_oe]
  rfl

/-- Driving one pin leaves the latch bit of every other: it is of another bank, or another bit of the same. -/
theorem drive_latch_of_ne {n k : BitVec 7} (h : n ≠ k) (p : Bool) :
    ((s.drive (pinBank k) (pinMask k) p).bank (pinBank n)).dataOut.getLsbD (pinBit n) =
      (s.bank (pinBank n)).dataOut.getLsbD (pinBit n) := by
  rw [drive_bank]
  split
  next hbank =>
    have hbit : pinBit n ≠ pinBit k := fun hbit => h (pinAddress_injective hbank hbit)
    simp [driven_getLsbD, pinMask_getLsbD, hbit, hbank]
  next => rfl

theorem padLevel_drive_of_ne {n k : BitVec 7} (h : n ≠ k) (p : Bool) :
    (s.drive (pinBank k) (pinMask k) p).padLevel n = s.padLevel n := by
  rw [State.padLevel, State.padLevel, drive_oe, drive_latch_of_ne s h]
  rfl

end

section
variable {s : State} {p : Pin}

/-- An IN pin has the level that the outside world drives, whatever the latches are. -/
theorem levelOf_drive_of_not_isOut (h : ¬s.isOut p) (b : BankId) (m : Word) (v : Bool) :
    (s.drive b m v).levelOf p = s.levelOf p := by
  have hin : ¬(s.drive b m v).isOut p := fun hout => h ((isOut_drive s b m v p).1 hout)
  calc (s.drive b m v).levelOf p = ((s.drive b m v).bank p.bank).padIn.getLsbD p.bit := if_neg hin
    _ = (s.bank p.bank).padIn.getLsbD p.bit := by rw [drive_padIn]
    _ = s.levelOf p := (if_neg h).symm

/-- The pad of an OUT pin shows the pin's level. -/
theorem padLevel_of_isOut (h : s.isOut p) : s.padLevel p.num = some (s.levelOf p) := by
  have hdir : directionOf s.cfg (s.bank (pinBank p.num)).oe (pinBit p.num) = .output := direction_of_isOut h
  rw [State.padLevel, hdir, levelOf_of_isOut h]
  rfl

end

/-! ### SETIMM (R98) -/

/-- Settles O20: the pads show the latch that SETIMM's one micro-step has driven. -/
theorem setimmDrivesAtOnce : Obligations.SetimmDrivesAtOnce := by
  refine fun s h v hvalid ha => ⟨_, exec_setimm hvalid ha v, rfl, fun hout => ?own, fun n hn => ?others⟩
  case own =>
    have hshown := padLevel_of_isOut ((isOut_drive s (s.pin h).bank (s.pin h).mask (v ^^ (s.pin h).al) _).2 hout)
    rwa [levelOf_drive hout] at hshown
  case others => exact padLevel_drive_of_ne s hn _

/-! ### The micro-steps of SETACTLOW (R99) -/

/-- What SETACTLOW carries from its second micro-step on: the direction, the logical level and the flag it read. -/
def State.flagTemps (s : State) (p : Pin) : Temps :=
  { Temps.none with dir := s.direction p, level := p.logical (s.levelOf p), old := p.al }

/-- `s` after SETACTLOW has changed the flag of slot `h` to `v`: the pin is driven to the inverse of its level. -/
def State.repolarized (s : State) (h : BitVec 8) (v : Bool) : State :=
  (s.setPin h { s.pin h with al := v }).drive (s.pin h).bank (s.pin h).mask (!s.levelOf (s.pin h))

/-- The other flag reads a level as its inverse. -/
theorem logical_of_al_ne {p : Pin} {v : Bool} (h : p.al ≠ v) (l : Bool) :
    ({ p with al := v } : Pin).logical l = !p.logical l := by
  obtain rfl : v = !p.al := Bool.eq_not.2 h.symm
  simp [Pin.logical]

/-- A slot written with the flag that it has. -/
theorem setPin_al_self (s : State) (h : BitVec 8) : s.setPin h { s.pin h with al := (s.pin h).al } = s :=
  setPin_pin_eq s h

/-- No slot is part of an access. -/
theorem State.Accessible.setPin {s : State} {b : BankId} (ha : s.Accessible b) (h : BitVec 8) (p : Pin) :
    (s.setPin h p).Accessible b :=
  ⟨ha.opened, ha.clocked, ha.noBusError⟩

/-- A slot that holds a handle is a slot of the table. -/
theorem lt_length_of_valid {s : State} {h : BitVec 8} (hvalid : (s.pin h).valid = true) : h.toNat < s.pins.length := by
  by_contra hge
  have hempty : s.pin h = Pin.empty := List.getD_eq_default _ _ (not_lt.1 hge)
  rw [hempty] at hvalid
  cases hvalid

section
variable {s : State} {h : BitVec 8}

theorem exec_setactlow_first (hm : s.mstep = 1) (hvalid : (s.pin h).valid = true) (ha : s.Accessible (s.pin h).bank)
    (v : Bool) : exec (.setactlow h v) s =
      .next (s.enter (.setactlow h v) 2 { Temps.none with dir := s.direction (s.pin h) }) := by
  simp only [exec, execSetactlow, hm, readDirection_accessible hvalid ha]

theorem exec_setactlow_second (hm : s.mstep = 2) (ha : s.Accessible (s.pin h).bank) (v : Bool) :
    exec (.setactlow h v) s = .next (s.enter (.setactlow h v) 3 { s.temps with
      level := (s.pin h).logical
        ((s.readWord (s.pin h).bank (levelRegister s.temps.dir)).getLsbD (s.pin h).bit)
      old := (s.pin h).al }) := by
  simp only [exec, execSetactlow, hm, readThen_accessible ha, afterRead_levelRegister]

theorem exec_setactlow_third (hm : s.mstep = 3) (v : Bool) : exec (.setactlow h v) s =
    .next (if v = s.temps.old then (s.setPin h { s.pin h with al := v }).respond .ok 0
      else (s.setPin h { s.pin h with al := v }).enter (.setactlow h v) 4 s.temps) := by
  simp only [exec, execSetactlow, hm]
  split <;> rfl

theorem exec_setactlow_fourth (hm : s.mstep = 4) (ha : s.Accessible (s.pin h).bank) (v : Bool) :
    exec (.setactlow h v) s =
      .next ((s.drive (s.pin h).bank (s.pin h).mask (s.temps.level ^^ v)).respond .ok 0) :=
  exec_of_physWrite_accessible (if_pos hm) ha

/-! ### Each of them right after the one before -/

theorem exec_setactlow_second_entered (hlt : s.turn.port < s.ports.length) (ha : s.Accessible (s.pin h).bank)
    (v : Bool) :
    exec (.setactlow h v) (s.enter (.setactlow h v) 2 { Temps.none with dir := s.direction (s.pin h) }) =
      .next (s.enter (.setactlow h v) 3 (s.flagTemps (s.pin h))) := by
  rw [exec_setactlow_second (enter_mstep _ _ _ _ hlt) (ha.enter ..), enter_temps _ _ _ _ hlt,
    enter_enter _ _ _ _ _ _ _ hlt, enter_readWord, enter_pin, readWord_level, State.flagTemps]

/-- With the flag that the slot has, the slot is written over itself. -/
theorem exec_setactlow_third_same (hlt : s.turn.port < s.ports.length) {v : Bool} (hal : (s.pin h).al = v) :
    exec (.setactlow h v) (s.enter (.setactlow h v) 3 (s.flagTemps (s.pin h))) = .next (s.respond .ok 0) := by
  subst hal
  have hold : (s.pin h).al = (s.flagTemps (s.pin h)).old := rfl
  rw [exec_setactlow_third (enter_mstep _ _ _ _ hlt), enter_temps _ _ _ _ hlt, if_pos hold, enter_pin, enter_setPin,
    setPin_al_self, enter_respond _ _ _ _ _ _ hlt]

theorem exec_setactlow_third_changed (hlt : s.turn.port < s.ports.length) {v : Bool} (hal : (s.pin h).al ≠ v) :
    exec (.setactlow h v) (s.enter (.setactlow h v) 3 (s.flagTemps (s.pin h))) =
      .next ((s.setPin h { s.pin h with al := v }).enter (.setactlow h v) 4 (s.flagTemps (s.pin h))) := by
  have hold : v ≠ (s.flagTemps (s.pin h)).old := hal.symm
  rw [exec_setactlow_third (enter_mstep _ _ _ _ hlt), enter_temps _ _ _ _ hlt, if_neg hold, enter_pin, enter_setPin,
    enter_enter _ _ _ _ _ _ _ (by exact hlt)]

/-- The logical level under the other flag is the inverse of the physical level that was read. -/
theorem flagTemps_level_xor {p : Pin} {v : Bool} (hal : p.al ≠ v) : ((s.flagTemps p).level ^^ v) = !s.levelOf p := by
  obtain rfl : v = !p.al := Bool.eq_not.2 hal.symm
  simp [State.flagTemps, Pin.logical]

theorem exec_setactlow_fourth_entered (hlt : s.turn.port < s.ports.length) (hvalid : (s.pin h).valid = true)
    (ha : s.Accessible (s.pin h).bank) {v : Bool} (hal : (s.pin h).al ≠ v) :
    exec (.setactlow h v)
        ((s.setPin h { s.pin h with al := v }).enter (.setactlow h v) 4 (s.flagTemps (s.pin h))) =
      .next ((s.repolarized h v).respond .ok 0) := by
  have hpin := setPin_pin_self s { s.pin h with al := v } (lt_length_of_valid hvalid)
  rw [exec_setactlow_fourth (enter_mstep _ _ _ _ (by exact hlt))
    (by rw [enter_pin, hpin]; exact (ha.setPin ..).enter ..), enter_temps _ _ _ _ (by exact hlt),
    flagTemps_level_xor hal, enter_pin, hpin, enter_drive, enter_respond _ _ _ _ _ _ (by exact hlt)]
  rfl

end

/-- Settles O23. -/
theorem setactlowStoresFlagAndInvertsLevel : Obligations.SetactlowStoresFlagAndInvertsLevel :=
  fun _ _ v hs hvalid ha => ⟨_, _, exec_setactlow_first hs.first hvalid ha v,
    exec_setactlow_second_entered hs.exists_port ha v, exec_setactlow_third_same hs.exists_port,
    fun hal => ⟨_, exec_setactlow_third_changed hs.exists_port hal,
      exec_setactlow_fourth_entered hs.exists_port hvalid ha hal⟩⟩

/-! ### What GETSTATE answers after it (R100) -/

theorem boolData_not (v : Bool) : boolData (!v) = boolData v ^^^ 1 := by cases v <;> decide

section
variable {s : State} {h : BitVec 8} {v : Bool}

/-- The whole of SETACTLOW, with the flag that the slot has and with the other. -/
theorem runInstr_setactlow (hs : s.Ready) (hvalid : (s.pin h).valid = true) (ha : s.Accessible (s.pin h).bank)
    (v : Bool) : runInstr (.setactlow h v) (if (s.pin h).al = v then 3 else 4) s =
      .next ((if (s.pin h).al = v then s else s.repolarized h v).respond .ok 0) := by
  obtain ⟨u, x, hfirst, hsecond, hsame, hchanged⟩ := setactlowStoresFlagAndInvertsLevel s h v hs hvalid ha
  by_cases hal : (s.pin h).al = v
  · simp only [if_pos hal, runInstr, hfirst, hsecond, hsame hal]
  · obtain ⟨y, hthird, hfourth⟩ := hchanged hal
    simp only [if_neg hal, runInstr, hfirst, hsecond, hthird, hfourth]
    rfl

theorem repolarized_pin (hvalid : (s.pin h).valid = true) : (s.repolarized h v).pin h = { s.pin h with al := v } :=
  setPin_pin_self s _ (lt_length_of_valid hvalid)

theorem repolarized_accessible {b : BankId} (ha : s.Accessible b) : (s.repolarized h v).Accessible b :=
  (ha.setPin ..).drive ..

/-- The latch of an OUT pin is inverted with the flag, so that the logical level stays. -/
theorem repolarized_logical_of_isOut (hout : s.isOut (s.pin h)) (hal : (s.pin h).al ≠ v) :
    ({ s.pin h with al := v } : Pin).logical ((s.repolarized h v).levelOf (s.pin h)) =
      (s.pin h).logical (s.levelOf (s.pin h)) := by
  have hlevel : (s.repolarized h v).levelOf (s.pin h) = !s.levelOf (s.pin h) :=
    levelOf_drive (s := s.setPin h { s.pin h with al := v }) hout _
  rw [hlevel, logical_of_al_ne hal]
  simp [Pin.logical]

/-- The pad of an IN pin stays, so that the logical level is inverted with the flag. -/
theorem repolarized_logical_of_not_isOut (hin : ¬s.isOut (s.pin h)) (hal : (s.pin h).al ≠ v) :
    ({ s.pin h with al := v } : Pin).logical ((s.repolarized h v).levelOf (s.pin h)) =
      !(s.pin h).logical (s.levelOf (s.pin h)) := by
  have hlevel : (s.repolarized h v).levelOf (s.pin h) = s.levelOf (s.pin h) :=
    levelOf_drive_of_not_isOut (s := s.setPin h { s.pin h with al := v }) hin _ _ _
  rw [hlevel, logical_of_al_ne hal]

/-- GETSTATE after a command that ended with OK. -/
theorem runInstr_getstate_after_respond (hlt : s.turn.port < s.ports.length) (hvalid : (s.pin h).valid = true)
    (ha : s.Accessible (s.pin h).bank) : ∃ u, runInstr (.getstate h) 2 (s.respond .ok 0) = .next u ∧
      u.port.rsp = ⟨.ok, boolData ((s.pin h).logical (s.levelOf (s.pin h)))⟩ := by
  have hready := respond_ready hlt .ok 0
  refine ⟨_, runInstr_getstate hready hvalid (ha.respond ..), ?_⟩
  rw [respond_port _ _ _ hready.exists_port]
  rfl

end

/-- Settles O31: GETSTATE after SETACTLOW reads the pin with its new flag at its new level. -/
theorem activeLowInvariance : Obligations.ActiveLowInvariance := by
  intro s h v hs _ hvalid ha
  have hbefore : (s.respond .ok (boolData ((s.pin h).logical (s.levelOf (s.pin h))))).port.rsp =
      ⟨.ok, boolData ((s.pin h).logical (s.levelOf (s.pin h)))⟩ := by rw [respond_port _ _ _ hs.exists_port]
  have hset := runInstr_setactlow hs hvalid ha v
  by_cases hal : (s.pin h).al = v
  · obtain ⟨u, hget, hafter⟩ := runInstr_getstate_after_respond hs.exists_port hvalid ha
    refine ⟨_, _, u, hset, runInstr_getstate hs hvalid ha, by rwa [if_pos hal], ?_⟩
    rw [hbefore, hafter]
    exact ⟨rfl, rfl, fun _ => rfl, fun _ hne => absurd hal hne⟩
  · have hpin : (s.repolarized h v).pin h = { s.pin h with al := v } := repolarized_pin hvalid
    obtain ⟨u, hget, hafter⟩ := runInstr_getstate_after_respond (s := s.repolarized h v) (h := h) hs.exists_port
      (by rw [hpin]; exact hvalid) (by rw [hpin]; exact repolarized_accessible ha)
    refine ⟨_, _, u, hset, runInstr_getstate hs hvalid ha, by rwa [if_neg hal], ?_⟩
    rw [hbefore, hafter, hpin]
    refine ⟨rfl, rfl, fun hout => ?out, fun hin _ => ?input⟩
    case out => exact congrArg boolData (repolarized_logical_of_isOut hout hal)
    case input => exact (congrArg boolData (repolarized_logical_of_not_isOut hin hal)).trans (boolData_not _)

/-! ### The frame of SETACTLOW (R94, R99) -/

section
variable {s t : State} {h : BitVec 8} {v : Bool}

/-- The first two micro-steps of SETACTLOW read. -/
theorem execSetactlow_changesOnlyPort (hthird : s.mstep ≠ 3) (hfourth : s.mstep ≠ 4) :
    ChangesOnlyPort s (execSetactlow h v s) := by
  unfold execSetactlow
  split
  · exact readThen_changesOnlyPort (afterRead_levelRegister s _) fun _ => (onlyPort_enter s _ 3 _).changesOnlyPort
  · contradiction
  · contradiction
  · exact readDirection_changesOnlyPort s _ h

/-- The third writes the flag. -/
theorem execSetactlow_third_frame (hm : s.mstep = 3) (hexec : exec (.setactlow h v) s = .next t) :
    (s.setPin h { s.pin h with al := v }).onlyPort t := by
  cases (exec_setactlow_third hm v).symm.trans hexec
  split
  · exact onlyPort_respond _ .ok 0
  · exact onlyPort_enter _ _ 4 _

end

/-- Settles O45: the third micro-step writes the slot, the fourth is a single-bit write, and the others read. -/
theorem setactlowChangesOnlyFlagAndLatchBit : Obligations.SetactlowChangesOnlyFlagAndLatchBit := by
  intro s t h v hexec
  by_cases hthird : s.mstep = 3
  · refine ⟨v, (s.bank (s.pin h).bank).dataOut, ?_, rfl, fun hne => absurd hthird hne, fun _ => rfl⟩
    have hbank := setBank_bank_eq (s.setPin h { s.pin h with al := v }) (s.pin h).bank
    exact hbank.symm ▸ execSetactlow_third_frame hthird hexec
  · by_cases hfourth : s.mstep = 4
    · obtain ⟨d, hport, hd, -⟩ := physWrite_frame (i := .setactlow h v) (if_pos hfourth) hexec
      exact ⟨_, d, by rwa [setPin_al_self], hd, fun _ => rfl, fun hne => absurd hfourth hne⟩
    · refine ⟨_, (s.bank (s.pin h).bank).dataOut, ?_, rfl, fun _ => rfl, fun _ => rfl⟩
      rw [setPin_al_self]
      exact (setBank_bank_eq s _).symm ▸ execSetactlow_changesOnlyPort hthird hfourth t hexec

end Sys2Proof.Machine
end

section
/-! PROOFS. Errors, hang and undefined (60_exceptions.md). Every micro-step that accesses a bank is its result gated by
the three tests of rule R33, said once in `exec_isAccess` for all the commands; one that makes no access and does
not come to `RequireMap` never faults. The fault, the hang and the bus error are then each one of the three tests. -/

namespace Sys2Proof.Machine

/-! ### What the tests of an access make of its result (R33, R34) -/

/-- What a bus error undoes before it is reported: a COMMIT gives up its lock (R88, R110). -/
def State.giveUpLock (s : State) : Instr → State
  | .commit c => s.setLock c.toNat .free
  | _ => s

theorem giveUpLock_of_ne_commit {i : Instr} (hi : ∀ c, i ≠ .commit c) (s : State) : s.giveUpLock i = s := by
  cases i with
  | commit c => exact absurd rfl (hi c)
  | _ => rfl

/-- The result of a micro-step of instruction `i` that accesses bank `b`, and gives `x` if the access is answered. -/
def State.gated (s : State) (i : Instr) (b : BankId) (x : Result) : Result :=
  match s.gate b with
  | .undefinedAccess => .fault .useAfterClose
  | .hang => .next (s.hold i)
  | .busError => .next ((s.giveUpLock i).raise .transientIO)
  | .pass => x

/-- The result is a next state or a refusal. -/
def NeverFaults (x : Result) : Prop := ∀ f, x ≠ .fault f

theorem next_neverFaults (s : State) : NeverFaults (.next s) := fun _ => nofun

theorem refused_neverFaults (r : Refusal) : NeverFaults (.refused r) := fun _ => nofun

section
variable {s : State} {i : Instr} {b : BankId} {x : Result}

theorem gated_unopened (hm : s.map ≠ .opened) : s.gated i b x = .fault .useAfterClose := by
  simp only [State.gated, gate_undefined_iff.2 hm]

theorem gated_unclocked (hm : s.map = .opened) (hclk : (s.bank b).clkEn = false) :
    s.gated i b x = .next (s.hold i) := by
  simp only [State.gated, gate_hang_iff.2 ⟨hm, hclk⟩]

theorem gated_busError (hm : s.map = .opened) (hclk : (s.bank b).clkEn = true) (herr : s.turn.busError = true) :
    s.gated i b x = .next ((s.giveUpLock i).raise .transientIO) := by
  simp only [State.gated, gate_busError_iff.2 ⟨hm, hclk, herr⟩]

theorem gated_neverFaults (hm : s.map = .opened) (hx : NeverFaults x) : NeverFaults (s.gated i b x) := by
  unfold State.gated
  split
  next hgate => exact absurd hm (gate_undefined_iff.1 hgate)
  · exact next_neverFaults _
  · exact next_neverFaults _
  · exact hx

/-! ### One rule for each shared operation -/

/-- `x` is the result of an access to bank `b` by instruction `i`: past the tests of rule R33 it is no fault. -/
def IsAccess (s : State) (i : Instr) (b : BankId) (x : Result) : Prop := ∃ y, NeverFaults y ∧ x = s.gated i b y

theorem readThen_isAccess {r : Reg} {k : Word → State → Result} (he : s.giveUpLock i = s)
    (hk : ∀ w t, NeverFaults (k w t)) : IsAccess s i b (s.readThen i b r k) := by
  refine ⟨k (s.readWord b r) (s.afterRead r), hk _ _, ?_⟩
  cases hgate : s.gate b with
  | busError => simp only [State.readThen, State.gated, hgate, he]
  | _ => simp only [State.readThen, State.gated, hgate]

theorem writeThen_isAccess {r : Reg} {v : Word} {e : State → State} {k : State → Result}
    (he : s.giveUpLock i = e s) (hk : ∀ t, NeverFaults (k t)) : IsAccess s i b (s.writeThen i b r v e k) := by
  cases hgate : s.gate b with
  | pass =>
    refine ⟨_, ?_, by simp only [State.gated, hgate]; rfl⟩
    simp only [State.writeThen, hgate]
    split
    · exact refused_neverFaults _
    · exact hk _
  | _ => exact ⟨.next s, next_neverFaults s, by simp only [State.writeThen, State.gated, hgate, he]⟩

theorem writePhys_isAccess (he : s.giveUpLock i = s) (m : Word) (p : Bool) : IsAccess s i b (s.writePhys i b m p) :=
  writeThen_isAccess he fun _ => next_neverFaults _

theorem withHandle_neverFaults {h : BitVec 8} {k : Pin → Result}
    (hk : (s.pin h).valid = true → NeverFaults (k (s.pin h))) : NeverFaults (s.withHandle h k) := by
  cases hvalid : (s.pin h).valid with
  | false => exact withHandle_invalid hvalid k ▸ next_neverFaults _
  | true => exact withHandle_valid hvalid k ▸ hk hvalid

theorem withLock_neverFaults {c : Nat} {k : Collection → Result} (hk : ∀ y, NeverFaults (k y)) :
    NeverFaults (s.withLock i c k) := by
  unfold State.withLock
  split
  · exact hk _
  · exact next_neverFaults _

end

/-- The lazy open closes no map. -/
theorem lazyOpen_map_ne_closed {s : State} (hm : s.map ≠ .closed) : s.lazyOpen.map ≠ .closed := by
  unfold State.lazyOpen
  split
  · rw [openProcedure_map]
    split <;> simp
  · exact hm

/-- `RequireMap` faults with the map closed and in no other state of it. -/
theorem requireMap_neverFaults {s : State} {k : State → Result} (hm : s.map ≠ .closed) (hk : ∀ t, NeverFaults (k t)) :
    NeverFaults (s.requireMap k) := by
  unfold State.requireMap
  split
  · exact next_neverFaults _
  next hclosed => exact absurd hclosed (lazyOpen_map_ne_closed hm)
  · exact hk _
  · exact hk _

/-! ### The micro-steps that access a bank -/

section
variable {s : State} {h : BitVec 8} {b : BankId} {v : Bool}

theorem validBank_eq_some_iff : s.validBank h = some b ↔ (s.pin h).valid = true ∧ (s.pin h).bank = b := by
  simp [State.validBank]

theorem validBank_eq_none_iff : s.validBank h = none ↔ (s.pin h).valid = false := by
  simp [State.validBank]

/-- The first micro-step that GETSTATE and SETACTLOW share. -/
theorem readDirection_isAccess {i : Instr} (he : s.giveUpLock i = s) (ha : s.validBank h = some b) :
    IsAccess s i b (readDirection i h s) := by
  obtain ⟨hvalid, rfl⟩ := validBank_eq_some_iff.1 ha
  rw [readDirection, withHandle_valid hvalid]
  exact readThen_isAccess he fun _ _ => next_neverFaults _

theorem execRegrd_isAccess {d : BankId} {r : Reg} (ha : nextAccess (.regrd d r) s = some b) :
    IsAccess s (.regrd d r) b (execRegrd d r s) := by
  simp only [nextAccess] at ha
  split at ha
  next hm =>
    cases ha
    simp only [execRegrd, hm]
    exact readThen_isAccess rfl fun _ _ => next_neverFaults _
  · cases ha

theorem execRegwr_isAccess {d : BankId} {r : Reg} {w : Word} (ha : nextAccess (.regwr d r w) s = some b) :
    IsAccess s (.regwr d r w) b (execRegwr d r w s) := by
  simp only [nextAccess] at ha
  split at ha
  next hm =>
    cases ha
    simp only [execRegwr, hm]
    exact writeThen_isAccess rfl fun _ => next_neverFaults _
  · cases ha

theorem execSetstate_isAccess (ha : nextAccess (.setstate h v) s = some b) :
    IsAccess s (.setstate h v) b (execSetstate h v s) := by
  simp only [nextAccess] at ha
  split at ha
  next hm =>
    cases ha
    simp only [execSetstate, hm]
    exact writePhys_isAccess rfl _ _
  next hm =>
    split at ha
    · cases ha
    next hic =>
      obtain ⟨hvalid, rfl⟩ := validBank_eq_some_iff.1 ha
      rw [execSetstate_of_ne_two hm, withHandle_valid hvalid, if_neg hic]
      exact writePhys_isAccess rfl _ _

theorem execSetimm_isAccess (ha : nextAccess (.setimm h v) s = some b) :
    IsAccess s (.setimm h v) b (execSetimm h v s) := by
  obtain ⟨hvalid, rfl⟩ := validBank_eq_some_iff.1 ha
  rw [execSetimm, withHandle_valid hvalid]
  exact writePhys_isAccess rfl _ _

theorem execGetstate_isAccess (ha : nextAccess (.getstate h) s = some b) :
    IsAccess s (.getstate h) b (execGetstate h s) := by
  simp only [nextAccess] at ha
  unfold execGetstate
  split
  next hm =>
    rw [if_pos hm] at ha
    cases ha
    exact readThen_isAccess rfl fun _ _ => next_neverFaults _
  next hm => exact readDirection_isAccess rfl (by rwa [if_neg hm] at ha)

theorem execChkdir_isAccess (ha : nextAccess (.chkdir h) s = some b) :
    IsAccess s (.chkdir h) b (execChkdir h s) := by
  obtain ⟨hvalid, rfl⟩ := validBank_eq_some_iff.1 ha
  rw [execChkdir, withHandle_valid hvalid]
  exact readThen_isAccess rfl fun _ _ => next_neverFaults _

theorem execSetactlow_isAccess (ha : nextAccess (.setactlow h v) s = some b) :
    IsAccess s (.setactlow h v) b (execSetactlow h v s) := by
  simp only [nextAccess] at ha
  unfold execSetactlow
  split
  next hm =>
    simp only [hm] at ha
    cases ha
    exact readThen_isAccess rfl fun _ _ => next_neverFaults _
  next hm =>
    rw [if_pos hm] at ha
    cases ha
  next hm =>
    simp only [hm] at ha
    cases ha
    exact writePhys_isAccess rfl _ _
  next hm2 hm3 hm4 =>
    rw [if_neg hm3, if_neg (not_or_intro hm2 hm4)] at ha
    exact readDirection_isAccess rfl ha

theorem execSetdeb_isAccess (ha : nextAccess (.setdeb h v) s = some b) :
    IsAccess s (.setdeb h v) b (execSetdeb h v s) := by
  simp only [nextAccess] at ha
  unfold execSetdeb
  split
  next hm =>
    rw [if_pos (.inl hm)] at ha
    cases ha
    exact readThen_isAccess rfl fun _ _ => next_neverFaults _
  next hm =>
    rw [if_pos (.inr hm)] at ha
    cases ha
    exact writeThen_isAccess rfl fun _ => next_neverFaults _
  next hm2 hm3 =>
    rw [if_neg (not_or_intro hm2 hm3)] at ha
    obtain ⟨hvalid, rfl⟩ := validBank_eq_some_iff.1 ha
    rw [withHandle_valid hvalid]
    refine readThen_isAccess rfl fun oe t => ?_
    split <;> exact next_neverFaults _

theorem exec_commit_isAccess {c : BitVec 8} (ha : nextAccess (.commit c) s = some b) :
    IsAccess s (.commit c) b (exec (.commit c) s) := by
  simp only [nextAccess] at ha
  split at ha
  · cases ha
  next hm =>
    obtain ⟨w, hw, rfl⟩ := Option.map_eq_some_iff.1 ha
    rw [exec_commit_of_entry (by omega) hw]
    exact writeThen_isAccess rfl fun _ => next_neverFaults _

end

/-- A micro-step that accesses a bank is gated by the tests of rule R33, whatever its instruction. -/
theorem exec_isAccess {i : Instr} {s : State} {b : BankId} (ha : nextAccess i s = some b) :
    IsAccess s i b (exec i s) := by
  cases i with
  | regrd => exact execRegrd_isAccess ha
  | regwr => exact execRegwr_isAccess ha
  | setstate => exact execSetstate_isAccess ha
  | setimm => exact execSetimm_isAccess ha
  | getstate => exact execGetstate_isAccess ha
  | chkdir => exact execChkdir_isAccess ha
  | setactlow => exact execSetactlow_isAccess ha
  | setdeb => exact execSetdeb_isAccess ha
  | commit => exact exec_commit_isAccess ha
  | mapopen | mapclose | pinnew | beginTx | getpend => cases ha

/-! ### The micro-steps that access no bank and do not come to `RequireMap` -/

section
variable {s : State} {h : BitVec 8} {v : Bool}

theorem execMapopen_neverFaults (s : State) : NeverFaults (execMapopen s) := by
  unfold execMapopen
  split
  · split <;> exact next_neverFaults _
  all_goals exact next_neverFaults _

theorem execMapclose_neverFaults (s : State) : NeverFaults (execMapclose s) := by
  unfold execMapclose
  split <;> exact next_neverFaults _

theorem execPinnew_neverFaults {ic : Bool} {coll : BitVec 7} {num : BitVec 8}
    (hn : ¬needsMap (.pinnew h ic coll num) s) : NeverFaults (execPinnew h ic coll num s) := by
  unfold execPinnew
  split
  · split <;> exact next_neverFaults _
  · exact next_neverFaults _
  next hm2 hm3 =>
    split
    · exact next_neverFaults _
    next hnum => exact absurd ⟨hm2, hm3, not_lt.1 hnum⟩ hn

theorem setstateBatch_neverFaults (h : BitVec 8) (v : Bool) (p : Pin) (s : State) :
    NeverFaults (setstateBatch h v p s) := by
  refine withLock_neverFaults fun x => ?_
  split <;> exact next_neverFaults _

theorem execSetstate_neverFaults (ha : nextAccess (.setstate h v) s = none) :
    NeverFaults (execSetstate h v s) := by
  simp only [nextAccess] at ha
  split at ha
  · cases ha
  next hm =>
    rw [execSetstate_of_ne_two hm]
    refine withHandle_neverFaults fun hvalid => ?_
    split at ha
    next hic =>
      rw [if_pos hic]
      exact setstateBatch_neverFaults h v _ s
    next => exact absurd hvalid (by simp [validBank_eq_none_iff.1 ha])

/-- The handle check refuses a slot that is not valid. -/
theorem withHandle_neverFaults_of_no_bank (ha : s.validBank h = none) (k : Pin → Result) :
    NeverFaults (s.withHandle h k) :=
  withHandle_invalid (validBank_eq_none_iff.1 ha) k ▸ next_neverFaults _

theorem execGetstate_neverFaults (ha : nextAccess (.getstate h) s = none) : NeverFaults (execGetstate h s) := by
  simp only [nextAccess] at ha
  unfold execGetstate
  split
  next hm => rw [if_pos hm] at ha; cases ha
  next hm => exact withHandle_neverFaults_of_no_bank (by rwa [if_neg hm] at ha) _

theorem execSetactlow_neverFaults (ha : nextAccess (.setactlow h v) s = none) :
    NeverFaults (execSetactlow h v s) := by
  simp only [nextAccess] at ha
  unfold execSetactlow
  split
  next hm => simp [hm] at ha
  · split <;> exact next_neverFaults _
  next hm => simp [hm] at ha
  next hm2 hm3 hm4 =>
    rw [if_neg hm3, if_neg (not_or_intro hm2 hm4)] at ha
    exact withHandle_neverFaults_of_no_bank ha _

theorem execSetdeb_neverFaults (ha : nextAccess (.setdeb h v) s = none) : NeverFaults (execSetdeb h v s) := by
  simp only [nextAccess] at ha
  unfold execSetdeb
  split
  next hm => simp [hm] at ha
  next hm => simp [hm] at ha
  next hm2 hm3 =>
    rw [if_neg (not_or_intro hm2 hm3)] at ha
    exact withHandle_neverFaults_of_no_bank ha _

theorem execGetpend_neverFaults (h : BitVec 8) (s : State) : NeverFaults (execGetpend h s) := by
  refine withHandle_neverFaults fun _ => ?_
  split
  · exact withLock_neverFaults fun _ => next_neverFaults _
  · exact next_neverFaults _

theorem exec_commit_neverFaults {c : BitVec 8} (ha : nextAccess (.commit c) s = none)
    (hn : ¬needsMap (.commit c) s) : NeverFaults (exec (.commit c) s) := by
  simp only [nextAccess] at ha
  split at ha
  next hm =>
    rw [exec, execCommit_waits hn hm]
    exact next_neverFaults _
  next hm =>
    have hend := List.getElem?_eq_none_iff.1 (Option.map_eq_none_iff.1 ha)
    rw [exec_commit_last (by omega) hend]
    exact next_neverFaults _

end

theorem exec_neverFaults {i : Instr} {s : State} (ha : nextAccess i s = none) (hn : ¬needsMap i s) :
    NeverFaults (exec i s) := by
  cases i with
  | mapopen => exact execMapopen_neverFaults s
  | mapclose => exact execMapclose_neverFaults s
  | regrd | regwr => exact absurd (show s.mstep ≠ 2 by simpa [nextAccess] using ha) hn
  | pinnew => exact execPinnew_neverFaults hn
  | setstate => exact execSetstate_neverFaults ha
  | setimm | chkdir =>
    simp only [exec, execSetimm, execChkdir]
    exact withHandle_neverFaults_of_no_bank ha _
  | getstate => exact execGetstate_neverFaults ha
  | setactlow => exact execSetactlow_neverFaults ha
  | setdeb => exact execSetdeb_neverFaults ha
  | beginTx => exact withLock_neverFaults fun _ => next_neverFaults _
  | commit => exact exec_commit_neverFaults ha hn
  | getpend => exact execGetpend_neverFaults _ s

/-! ### Undefined, hang and bus error (R115, R112, R110) -/

/-- Settles O37: an access that faults fails the first test of rule R33, a micro-step that comes to `RequireMap` faults
with the map closed, and no other micro-step faults. -/
theorem faultExactlyWhenUndefined : Obligations.FaultExactlyWhenUndefined := by
  refine fun i s f => ⟨fun hfault => ⟨rfl, ?only⟩, ?undefined⟩
  case only =>
    cases ha : nextAccess i s with
    | some b =>
      obtain ⟨x, hx, hexec⟩ := exec_isAccess ha
      exact .inl ⟨b, rfl, fun hm => gated_neverFaults hm hx f (hexec.symm.trans hfault)⟩
    | none =>
      by_cases hn : needsMap i s
      · refine .inr ⟨hn, by_contra fun hm => ?_⟩
        exact requireMap_neverFaults hm (fun _ => next_neverFaults _) f ((exec_of_needsMap hn).symm.trans hfault)
      · exact absurd hfault (exec_neverFaults ha hn f)
  case undefined =>
    rintro ⟨rfl, ⟨b, ha, hm⟩ | ⟨hn, hm⟩⟩
    · obtain ⟨x, -, hexec⟩ := exec_isAccess ha
      exact hexec.trans (gated_unopened hm)
    · exact (exec_of_needsMap hn).trans (requireMap_closed hm _)

/-- Settles O38: the access fails the second test of rule R33. -/
theorem accessWithoutClockHangs : Obligations.AccessWithoutClockHangs := by
  intro i s b ha hm hclk
  obtain ⟨x, -, hexec⟩ := exec_isAccess ha
  exact hexec.trans (gated_unclocked hm hclk)

/-- Settles O39: the access fails the third test of rule R33, and what is undone is COMMIT's lock alone. -/
theorem busErrorEndsTheCommand : Obligations.BusErrorEndsTheCommand := by
  intro i s b ha hm hclk herr
  obtain ⟨x, -, hexec⟩ := exec_isAccess ha
  have hanswer := hexec.trans (gated_busError hm hclk herr)
  refine ⟨fun hi => ?others, fun c hi => ?commit⟩
  case others => rwa [giveUpLock_of_ne_commit hi] at hanswer
  case commit => subst hi; exact hanswer

end Sys2Proof.Machine
end

section
/-! PROOFS. Whose turn it is (R45, R140): no micro-step touches the queue of turns, so every step uses up one queued
turn, and with none queued the ports go in rotation; so every port comes to its turn within a bound. -/

namespace Sys2Proof.Machine

/-! ### The queue of turns -/

theorem State.onlyPort.turns {s t : State} (h : s.onlyPort t) : t.turns = s.turns := by
  obtain ⟨_, -, rfl⟩ := h
  rfl

section
variable {s t : State}

/-- The frame of each instruction leaves the queue as it is. -/
theorem exec_turns {i : Instr} (hexec : exec i s = .next t) : t.turns = s.turns := by
  cases i with
  | mapopen =>
    obtain ⟨m, hport⟩ := mapCommandsChangeOnlyTheMap.1 s t hexec
    exact hport.turns
  | mapclose =>
    obtain ⟨m, hport⟩ := mapCommandsChangeOnlyTheMap.2 s t hexec
    exact hport.turns
  | regrd b r =>
    obtain ⟨m, d, hport, -⟩ := execRegrd_frame hexec
    exact hport.turns
  | regwr b r w =>
    obtain ⟨⟨m, x, hport, -⟩, -⟩ := regwrChangesOnlyItsRegister s t b r w hexec
    exact hport.turns
  | pinnew h ic coll num =>
    obtain ⟨m, p, k, hport, -⟩ := pinnewChangesOnlySlotMapAndClock s t h ic coll num hexec
    exact hport.turns
  | setstate h v =>
    cases hw : physWrite (.setstate h v) s with
    | some w =>
      obtain ⟨d, hport, -⟩ := physWrite_frame hw hexec
      exact hport.turns
    | none =>
      obtain ⟨x, hport, -⟩ := execSetstate_frame_of_no_write hw hexec
      exact hport.turns
  | setimm h v =>
    obtain ⟨d, hport, -⟩ := execSetimm_frame hexec
    exact hport.turns
  | getstate h => exact (execGetstate_changesOnlyPort s h t hexec).turns
  | chkdir h => exact (execChkdir_changesOnlyPort s h t hexec).turns
  | setactlow h v =>
    obtain ⟨al, d, hport, -⟩ := setactlowChangesOnlyFlagAndLatchBit s t h v hexec
    exact hport.turns
  | setdeb h v =>
    by_cases hm : s.mstep = 3
    · obtain ⟨d, hport, -⟩ := execSetdeb_third_frame hm hexec
      exact hport.turns
    · exact (execSetdeb_changesOnlyPort hm t hexec).turns
  | beginTx c =>
    obtain ⟨r, hport⟩ := execBegin_frame hexec
    exact hport.turns
  | commit c =>
    obtain ⟨m, x, banks, hport, -⟩ := batchCommandsChangeOnlyTheirCollection.2 s t c hexec
    exact hport.turns
  | getpend h => exact (execGetpend_changesOnlyPort s h t hexec).turns

theorem runPort_turns (h : runPort s = .next t) : t.turns = s.turns := by
  rcases runPort_next h with rfl | ⟨_, _, _, -, -, -, -, rfl⟩ | ⟨_, i, -, hexec, -⟩
  · rfl
  · rfl
  · exact exec_turns hexec

/-- A step uses up one queued turn, if there is one. -/
theorem step_turns (h : step s = .next t) : t.turns = s.turns.tail := by
  rcases step_next h with ⟨m, ts, hqueue, rfl⟩ | ⟨p, -, hrun⟩
  · obtain ⟨-, -, -, -, -, -, hturns, -⟩ := hostMove_block { s with turns := ts } m
    rw [hturns, hqueue, List.tail_cons]
  · exact runPort_turns hrun

/-! ### The rotation of the ports (log 3) -/

theorem nextTurn_of_no_turns (hqueue : s.turns = []) : s.nextTurn = some s.rotated := by
  simp only [State.nextTurn, hqueue]

theorem step_rotates (hqueue : s.turns = []) (h : step s = .next t) : t.turn = s.rotated := by
  rw [step_of_nextTurn (nextTurn_of_no_turns hqueue)] at h
  obtain ⟨_, hturned, -⟩ := runPort_turned h
  exact hturned.turn

/-- After `n` turns in rotation the next port is `n` places further on. -/
theorem run_rotates {n : Nat} (hqueue : s.turns = []) (h : Host.Core.run Sys2Proof.core n s = .next t) :
    t.nextPort = some ((s.turn.port + 1 + n) % s.ports.length) := by
  induction n generalizing s with
  | zero =>
    cases h
    rw [State.nextPort, nextTurn_of_no_turns hqueue]
    rfl
  | succ n ih =>
    obtain ⟨u, hstep, hrest⟩ := run_succ_next h
    have hnext := ih (by rw [step_turns hstep, hqueue, List.tail_nil]) hrest
    rw [hnext, step_rotates hqueue hstep, (step_keeps hstep).requesters, rotated_port, Nat.add_assoc, Nat.mod_add_mod,
      Nat.add_comm 1 n, Nat.add_assoc]

end

/-- From any place of a rotation of `l` places, place `p` is less than `l` places further on. -/
theorem exists_rotation {p l : Nat} (hp : p < l) (a : Nat) : ∃ n, n < l ∧ (a + n) % l = p := by
  have ha : a % l < l := Nat.mod_lt a (by omega)
  by_cases hle : a % l ≤ p
  · refine ⟨p - a % l, by omega, ?_⟩
    rw [← Nat.mod_add_mod, Nat.add_sub_cancel' hle, Nat.mod_eq_of_lt hp]
  · refine ⟨p + l - a % l, by omega, ?_⟩
    rw [← Nat.mod_add_mod, Nat.add_sub_cancel' (by omega), Nat.add_mod_right, Nat.mod_eq_of_lt hp]

/-- Settles O59, by induction on the queue: with none queued the rotation brings the port, and a queued turn is one
step more, after which the run has stopped or goes on with the rest of the queue. -/
theorem everyPortComesToItsTurn : Obligations.EveryPortComesToItsTurn := by
  intro s p hp
  induction hqueue : s.turns generalizing s with
  | nil =>
    obtain ⟨n, hn, hplace⟩ := exists_rotation hp (s.turn.port + 1)
    refine ⟨n, by simpa using hn, fun t h => ?_⟩
    rw [run_rotates hqueue h, hplace]
  | cons a ts ih =>
    rw [List.length_cons]
    by_cases hnext : ∃ u, step s = .next u
    · obtain ⟨u, hstep⟩ := hnext
      have hlen := (step_keeps hstep).requesters
      obtain ⟨n, hn, hcomes⟩ := ih u (hlen ▸ hp) (by rw [step_turns hstep, hqueue, List.tail_cons])
      refine ⟨n + 1, by omega, fun t h => ?_⟩
      obtain ⟨u', hstep', hrest⟩ := run_succ_next h
      cases hstep.symm.trans hstep'
      exact hcomes t hrest
    · refine ⟨1, by omega, fun t h => ?_⟩
      obtain ⟨u, hstep, -⟩ := run_succ_next h
      exact absurd ⟨u, hstep⟩ hnext

end Sys2Proof.Machine
end

section
/-! PROOFS. What the host and other ports can do between the micro-steps of a command (70_reset_and_hazards.md): a
direction changed between the two reads of GETSTATE (R136), and two SETDEBs on one bank of which the second reads
before the first writes (R132). -/

namespace Sys2Proof.Machine

/-! ### GETSTATE and a new direction (R136) -/

/-- New directions are a new output-enable word, and no other register changes. -/
theorem setDirections_bank (s : State) (b d : BankId) (oe : Word) :
    ∃ w, (s.hostMove (.setDirections d oe)).bank b = { s.bank b with oe := w } := by
  simp only [State.hostMove, setBank_bank]
  split
  next hbd => exact ⟨oe, by rw [hbd]⟩
  next => exact ⟨(s.bank b).oe, rfl⟩

theorem readWord_setDirections (s : State) (b d : BankId) (oe : Word) (r : Direction) :
    (s.hostMove (.setDirections d oe)).readWord b (levelRegister r) = s.readWord b (levelRegister r) := by
  obtain ⟨w, hbank⟩ := setDirections_bank s b d oe
  cases r with
  | input => exact (congrArg Bank.padIn hbank).trans rfl
  | output => exact (congrArg Bank.dataOut hbank).trans rfl

theorem State.Accessible.setDirections {s : State} {b : BankId} (ha : s.Accessible b) (d : BankId) (oe : Word) :
    (s.hostMove (.setDirections d oe)).Accessible b :=
  ⟨ha.opened, hostMove_clkEn s (.setDirections d oe) b ha.clocked, ha.noBusError⟩

/-- Settles O33: the direction is carried from the first read, and the second reads the register it chose. -/
theorem getstateUsesTheFirstDirection : Obligations.GetstateUsesTheFirstDirection := by
  intro s h oe hs hvalid ha
  refine ⟨_, exec_getstate_first hs.first hvalid ha, ?_⟩
  have hmoved := ha.setDirections (s.pin h).bank oe
  have hlt : (s.hostMove (.setDirections (s.pin h).bank oe)).turn.port <
      (s.hostMove (.setDirections (s.pin h).bank oe)).ports.length := hs.exists_port
  have hcommute : ∀ i n x, (s.enter i n x).hostMove (.setDirections (s.pin h).bank oe) =
      (s.hostMove (.setDirections (s.pin h).bank oe)).enter i n x := fun _ _ _ => rfl
  have hpin : (s.hostMove (.setDirections (s.pin h).bank oe)).pin h = s.pin h := rfl
  rw [hcommute, exec_getstate_second (enter_mstep _ _ _ _ hlt) (hmoved.enter ..), enter_temps _ _ _ _ hlt,
    enter_respond _ _ _ _ _ _ hlt, enter_readWord, enter_pin, hpin, readWord_setDirections, readWord_level, boolData_eq,
    Pin.logical]

/-! ### Turns of two ports, one after the other -/

/-- `s` after the turn `t`, which has left its port as `x` and changed nothing else. -/
def State.afterTurn (s : State) (t : PortTurn) (x : Port) : State :=
  { s.taking t with ports := s.ports.set t.port x }

/-- `s` after a turn of each of two ports, which have changed nothing but the ports. -/
def State.afterRound (s : State) (p q : PortTurn) (x y : Port) : State := (s.afterTurn p x).afterTurn q y

/-- The port with instruction `i` in flight at micro-step `n`. -/
def Port.standing (x : Port) (i : Instr) (n : Nat) (z : Temps) : Port := { x with flight := some ⟨i, n, z⟩ }

/-- The port after a response OK with no data (R25). -/
def Port.answeredOk (x : Port) : Port := { x with idx := x.idx + 1, flight := none, rsp := ⟨.ok, 0⟩ }

section
variable {s : State} {t p q : PortTurn} {x y : Port} {ts : List Turn}

theorem taking_enter (hx : s.ports[t.port]? = some x) (i : Instr) (n : Nat) (z : Temps) :
    (s.taking t).enter i n z = s.afterTurn t (x.standing i n z) := enter_eq (s := s.taking t) hx i n z

theorem taking_respond_ok (hx : s.ports[t.port]? = some x) :
    (s.taking t).respond .ok 0 = s.afterTurn t x.answeredOk := respond_eq (s := s.taking t) hx .ok 0

theorem afterTurn_self (hx : s.ports[t.port]? = some x) (y : Port) : (s.afterTurn t y).ports[t.port]? = some y := by
  obtain ⟨hlt, -⟩ := List.getElem?_eq_some_iff.1 hx
  exact List.getElem?_set_self hlt

theorem afterTurn_other {n : Nat} (hne : t.port ≠ n) (hx : s.ports[n]? = some x) (y : Port) :
    (s.afterTurn t y).ports[n]? = some x := (List.getElem?_set_ne hne).trans hx

theorem afterTurn_turns {a : Turn} (hqueue : s.turns = a :: ts) (x : Port) : (s.afterTurn t x).turns = ts :=
  congrArg List.tail hqueue

theorem afterRound_first (hne : p.port ≠ q.port) (hx : s.ports[p.port]? = some x) (x' y' : Port) :
    (s.afterRound p q x' y').ports[p.port]? = some x' := afterTurn_other hne.symm (afterTurn_self hx x') y'

theorem afterRound_second (hne : p.port ≠ q.port) (hy : s.ports[q.port]? = some y) (x' y' : Port) :
    (s.afterRound p q x' y').ports[q.port]? = some y' := afterTurn_self (afterTurn_other hne hy x') y'

theorem afterRound_turns {a b : Turn} (hqueue : s.turns = a :: b :: ts) (x y : Port) :
    (s.afterRound p q x y).turns = ts := afterTurn_turns (afterTurn_turns hqueue x) y

theorem nextTurn_of_queued (hqueue : s.turns = .port t :: ts) : s.nextTurn = some t := by
  simp only [State.nextTurn, hqueue]

/-- A run goes on from the state of its first step. -/
theorem run_succ {u : State} (h : step s = .next u) (n : Nat) :
    Host.Core.run Sys2Proof.core (n + 1) s = Host.Core.run Sys2Proof.core n u := by
  simp [Host.Core.run, Sys2Proof.core, h]

end

/-! ### The turns of SETDEB (R81) -/

/-- The port of the turn `t` stands as `x` and presents SETDEB of an IN pin, whose bank it can access. -/
structure State.PresentsSetdeb (s : State) (t : PortTurn) (x : Port) (h : BitVec 8) (v : Bool) : Prop where
  here : s.ports[t.port]? = some x
  idle : x.flight = none
  presented : ∃ c, x.prog[x.idx]? = some c ∧ decode s.cfg c = .ok (.setdeb h v)
  valid : (s.pin h).valid = true
  input : ¬s.isOut (s.pin h)
  access : (s.taking t).Accessible (s.pin h).bank

/-- The port of the turn `t` stands as `x`, inside SETDEB at micro-step `n` with the temporaries `z`, whose bank it can
access. -/
structure State.InSetdeb (s : State) (t : PortTurn) (x : Port) (h : BitVec 8) (v : Bool) (n : Nat) (z : Temps) :
    Prop where
  here : s.ports[t.port]? = some x
  flight : x.flight = some ⟨.setdeb h v, n, z⟩
  access : (s.taking t).Accessible z.bank

/-- What SETDEB carries from its test of the direction to its read. -/
def Pin.debTemps (p : Pin) : Temps := { Temps.none with bank := p.bank, mask := p.mask }

/-- What SETDEB carries from its read to its write. -/
def State.debRead (s : State) (z : Temps) : Temps := { z with word := (s.bank z.bank).debEn }

section
variable {s : State} {t p q : PortTurn} {x y : Port} {h k : BitVec 8} {v w : Bool} {z z' : Temps} {n : Nat}
  {ts : List Turn}

theorem step_setdeb_test (hturn : s.nextTurn = some t) (hs : s.PresentsSetdeb t x h v) :
    step s = .next (s.afterTurn t (x.standing (.setdeb h v) 2 (s.pin h).debTemps)) := by
  obtain ⟨hx, hf, ⟨c, hc, hd⟩, hvalid, hin, ha⟩ := hs
  rw [step_of_nextTurn hturn, runPort_of_command (s := s.taking t) hx hf hc hd, ← taking_enter hx]
  exact exec_setdeb_first (s := s.taking t) (mstep_of_no_flight (s := s.taking t) hx hf) hvalid ha hin v

theorem step_setdeb_read (hturn : s.nextTurn = some t) (hs : s.InSetdeb t x h v 2 z) :
    step s = .next (s.afterTurn t (x.standing (.setdeb h v) 3 (s.debRead z))) := by
  obtain ⟨hx, hf, ha⟩ := hs
  have htemps : (s.taking t).temps = z := temps_of_flight (s := s.taking t) hx hf
  rw [step_of_nextTurn hturn, runPort_of_flight (s := s.taking t) hx hf,
    exec_setdeb_second (mstep_of_flight (s := s.taking t) hx hf) (htemps.symm ▸ ha), htemps, taking_enter hx]
  rfl

theorem step_setdeb_write (hturn : s.nextTurn = some t) (hs : s.InSetdeb t x h v 3 z) :
    step s = .next ((s.afterTurn t x.answeredOk).setBank z.bank
      { s.bank z.bank with debEn := driven z.word z.mask v }) := by
  obtain ⟨hx, hf, ha⟩ := hs
  have htemps : (s.taking t).temps = z := temps_of_flight (s := s.taking t) hx hf
  rw [step_of_nextTurn hturn, runPort_of_flight (s := s.taking t) hx hf,
    exec_setdeb_third (mstep_of_flight (s := s.taking t) hx hf) (htemps.symm ▸ ha), htemps, ← taking_respond_ok hx]
  rfl

/-! ### Two SETDEBs interleaved (R132) -/

/-- A turn that changes nothing but its port leaves every access as it was. -/
theorem State.Accessible.afterTurn {b : BankId} (ha : (s.taking t).Accessible b) (p : PortTurn) (x : Port) :
    ((s.afterTurn p x).taking t).Accessible b := ⟨ha.opened, ha.clocked, ha.noBusError⟩

/-- Such a turn of another port leaves this one where it stands. -/
theorem State.PresentsSetdeb.afterOther (hs : s.PresentsSetdeb q y k w) (hne : p.port ≠ q.port) (x : Port) :
    (s.afterTurn p x).PresentsSetdeb q y k w where
  here := afterTurn_other hne hs.here x
  idle := hs.idle
  presented := hs.presented
  valid := hs.valid
  input := hs.input
  access := hs.access.afterTurn p x

theorem State.InSetdeb.afterOther (hs : s.InSetdeb q y k w n z) (hne : p.port ≠ q.port) (x : Port) :
    (s.afterTurn p x).InSetdeb q y k w n z where
  here := afterTurn_other hne hs.here x
  flight := hs.flight
  access := hs.access.afterTurn p x

/-- A write to DEBEN leaves every port where it stands. -/
theorem State.InSetdeb.setDebEn (hs : s.InSetdeb q y k w n z) (b : BankId) (e : Word) :
    (s.setBank b { s.bank b with debEn := e }).InSetdeb q y k w n z where
  here := hs.here
  flight := hs.flight
  access := ⟨hs.access.opened, setBank_clkEn (x := { s.bank b with debEn := e }) id z.bank hs.access.clocked,
    hs.access.noBusError⟩

/-- The first port of a round stands where its turn has left it. -/
theorem inSetdeb_first (hne : p.port ≠ q.port) (hx : s.ports[p.port]? = some x)
    (ha : (s.taking p).Accessible z.bank) (y : Port) :
    (s.afterRound p q (x.standing (.setdeb h v) n z) y).InSetdeb p (x.standing (.setdeb h v) n z) h v n z :=
  ⟨afterRound_first hne hx _ y, rfl, (ha.afterTurn p _).afterTurn q y⟩

theorem inSetdeb_second (hne : p.port ≠ q.port) (hy : s.ports[q.port]? = some y)
    (ha : (s.taking q).Accessible z.bank) (x : Port) :
    (s.afterRound p q x (y.standing (.setdeb k w) n z)).InSetdeb q (y.standing (.setdeb k w) n z) k w n z :=
  ⟨afterRound_second hne hy x _, rfl, (ha.afterTurn p x).afterTurn q _⟩

section
variable (hqueue : s.turns = .port p :: .port q :: ts) (hne : p.port ≠ q.port)
include hqueue hne

theorem run_setdeb_tests (hp : s.PresentsSetdeb p x h v) (hq : s.PresentsSetdeb q y k w) :
    ∃ u, (∀ n, Host.Core.run Sys2Proof.core (n + 2) s = Host.Core.run Sys2Proof.core n u) ∧ u.turns = ts ∧
      u.InSetdeb p (x.standing (.setdeb h v) 2 (s.pin h).debTemps) h v 2 (s.pin h).debTemps ∧
      u.InSetdeb q (y.standing (.setdeb k w) 2 (s.pin k).debTemps) k w 2 (s.pin k).debTemps ∧
      ∀ b, u.bank b = s.bank b := by
  have hfirst := step_setdeb_test (nextTurn_of_queued hqueue) hp
  have hsecond := fun x' =>
    step_setdeb_test (nextTurn_of_queued (afterTurn_turns (t := p) hqueue x')) (hq.afterOther hne x')
  exact ⟨_, fun n => (run_succ hfirst (n + 1)).trans (run_succ (hsecond _) n), afterRound_turns hqueue _ _,
    inSetdeb_first hne hp.here hp.access _, inSetdeb_second hne hq.here hq.access _, fun _ => rfl⟩

/-- Both reads find the word as it was before either. -/
theorem run_setdeb_reads (hp : s.InSetdeb p x h v 2 z) (hq : s.InSetdeb q y k w 2 z') :
    ∃ u, (∀ n, Host.Core.run Sys2Proof.core (n + 2) s = Host.Core.run Sys2Proof.core n u) ∧ u.turns = ts ∧
      u.InSetdeb p (x.standing (.setdeb h v) 3 (s.debRead z)) h v 3 (s.debRead z) ∧
      u.InSetdeb q (y.standing (.setdeb k w) 3 (s.debRead z')) k w 3 (s.debRead z') := by
  have hfirst := step_setdeb_read (nextTurn_of_queued hqueue) hp
  have hsecond := fun x' =>
    step_setdeb_read (nextTurn_of_queued (afterTurn_turns (t := p) hqueue x')) (hq.afterOther hne x')
  exact ⟨_, fun n => (run_succ hfirst (n + 1)).trans (run_succ (hsecond _) n), afterRound_turns hqueue _ _,
    inSetdeb_first (z := s.debRead z) hne hp.here hp.access _,
    inSetdeb_second (z := s.debRead z') hne hq.here hq.access _⟩

/-- The second write stores the word that its own read found, whatever the first has written. -/
theorem run_setdeb_writes (hp : s.InSetdeb p x h v 3 z) (hq : s.InSetdeb q y k w 3 z') :
    ∃ u, Host.Core.run Sys2Proof.core 2 s = .next u ∧ u.ports[p.port]? = some x.answeredOk ∧
      u.ports[q.port]? = some y.answeredOk ∧ (u.bank z'.bank).debEn = driven z'.word z'.mask w := by
  have hfirst := step_setdeb_write (nextTurn_of_queued hqueue) hp
  have hsecond := step_setdeb_write (nextTurn_of_queued (by exact afterTurn_turns (t := p) hqueue x.answeredOk))
    ((hq.afterOther hne x.answeredOk).setDebEn z.bank (driven z.word z.mask v))
  exact ⟨_, (run_succ hfirst 1).trans (run_succ hsecond 0), afterRound_first hne hp.here _ _,
    afterRound_second hne hq.here _ _, congrArg Bank.debEn (setBank_bank_self _ _ _)⟩

end

end

/-- Settles O34: both reads come before the first write, so the word that the second write stores was read without the
first one's bit. -/
theorem interleavedSetdebLosesAnUpdate : Obligations.InterleavedSetdebLosesAnUpdate := by
  intro s p q h k v w x y cx cy hne hx hy hxf hxc hxd hyf hyc hyd hpbus hqbus hopen hvalid hvalid' hin hin' hbank hclk
    hqueue
  have hp : s.PresentsSetdeb p x h v := ⟨hx, hxf, ⟨cx, hxc, hxd⟩, hvalid, hin, hopen, hclk, hpbus⟩
  have hq : s.PresentsSetdeb q y k w := ⟨hy, hyf, ⟨cy, hyc, hyd⟩, hvalid', hin', hopen, hbank ▸ hclk, hqbus⟩
  obtain ⟨tested, htests, hqueue₂, hp₂, hq₂, hbanks⟩ := run_setdeb_tests hqueue hne hp hq
  obtain ⟨read, hreads, hqueue₄, hp₄, hq₄⟩ := run_setdeb_reads hqueue₂ hne hp₂ hq₂
  obtain ⟨u, hwrites, hpend, hqend, hdeb⟩ := run_setdeb_writes hqueue₄ hne hp₄ hq₄
  have hword : (tested.debRead (s.pin k).debTemps).word = (s.bank (s.pin k).bank).debEn :=
    congrArg Bank.debEn (hbanks (s.pin k).bank)
  rw [hword] at hdeb
  exact ⟨u, _, _, (htests 4).trans ((hreads 2).trans hwrites), hpend, rfl, rfl, hqend, rfl, rfl, hdeb⟩

end Sys2Proof.Machine
end

section
/-! PROOFS. The state after reset meets the four invariants (R31): every Collection is idle, every slot is empty, and
every port is at the start of an empty command list, so that no command is in flight. -/

namespace Sys2Proof.Machine

/-! ### The ports after reset -/

theorem eq_start_of_mem_reset_ports {p : Port} (hp : p ∈ State.reset.ports) : p = Port.start [] :=
  List.eq_of_mem_replicate hp

theorem reset_no_flight {p : Port} (hp : p ∈ State.reset.ports) : p.flight = none := by
  rw [eq_start_of_mem_reset_ports hp]
  rfl

theorem not_insideCommit_reset (p c : Nat) : ¬ State.reset.insideCommit p c := by
  rintro ⟨q, f, -, hq, hf, -⟩
  have hnone := reset_no_flight (List.mem_of_getElem? hq)
  simp [hnone] at hf

/-- Nothing in flight and an index at the list's start make a legal position, whatever the command list. -/
theorem Port.start_legal (cfg : Config) (prog : List Command) : (Port.start prog).legal cfg :=
  ⟨Nat.zero_le _, fun _ hf => by cases hf⟩

/-- An invalid slot may hold anything (R15). -/
theorem Pin.legal_of_invalid {p : Pin} (cfg : Config) (hp : p.valid = false) : p.legal cfg :=
  fun hvalid => by simp [hp] at hvalid

/-! ### The four invariants -/

theorem reset_masksConsistent : MasksConsistent State.reset := fun c => by
  rw [reset_coll]
  exact idle_consistent

/-- No lock is held and no port is inside a COMMIT. -/
theorem reset_lockMatchesCommit : LockMatchesCommit State.reset := fun c p _ => by
  have hfree : (State.reset.coll c).lock = .free := congrArg Collection.lock (reset_coll c)
  simp [hfree, not_insideCommit_reset]

theorem reset_dormant : Dormant State.reset where
  invalid h := congrArg Pin.valid (reset_pin h)
  flights p hp f hf := by simp [reset_no_flight hp] at hf

theorem reset_wellShaped : WellShaped State.reset where
  legal_cfg := by decide
  slots := List.length_replicate
  collections := List.length_replicate
  requesters := List.length_replicate
  pins_legal h := Pin.legal_of_invalid _ (reset_dormant.invalid h)
  flights_legal p hp f hf := by simp [reset_no_flight hp] at hf
  ports_legal p hp := eq_start_of_mem_reset_ports hp ▸ Port.start_legal _ []

/-- Settles O54: after reset the Collections are idle, the state is dormant, and the tables have the sizes of the
standard parameters, which are legal. -/
theorem resetMeetsTheInvariants : Obligations.ResetMeetsTheInvariants :=
  ⟨reset_masksConsistent, reset_lockMatchesCommit,
    (liveOnlyIfOpened_iff _).2 (.inr (.inr reset_dormant)), reset_wellShaped⟩

end Sys2Proof.Machine
end
